-- ==== Sys2Proof/Word.lean ====
section
/-! DEFINITION. The machine's words: the three widths that travel through the command port (10_state.md R14)
and the six-byte packet (30_encoding.md R71, R72). -/

namespace Sys2Proof

/-- u8: enums and output indices on the command port (R14). -/
abbrev Byte := BitVec 8

/-- u16: the three velocities (R14). -/
abbrev Half := BitVec 16

/-- i32: positions, as their two's-complement pattern (R9, R14). -/
abbrev Word := BitVec 32

/-- Format REQ and format RESP (R71, R72): six bytes, the header's two and the payload's four, in offset order. -/
structure Packet where
  commandId : Byte
  controlByte : Byte
  payload0 : Byte
  payload1 : Byte
  payload2 : Byte
  payload3 : Byte
deriving DecidableEq, Repr, Inhabited

end Sys2Proof
end

