-- ==== Sys2Proof/Config.lean ====
section
/-! DEFINITION. What an implementation fixes (00_scope.md R7, 10_state.md R15) and the free values the spec leaves
open (30_encoding.md R78, 70_reset_and_hazards.md R241). The enumerated registers' types stand here because the reset
values are parameters. -/

namespace Sys2Proof.Machine

/-- R16. -/
inductive Mode where
  | velocity
  | position
deriving DecidableEq, Repr, Inhabited

/-- R17, R23. -/
inductive Direction where
  | positive
  | negative
deriving DecidableEq, Repr, Inhabited

/-- R24. -/
inductive RunStatus where
  | stopped
  | running
deriving DecidableEq, Repr, Inhabited

/-- The two values of `enable` (R25) and of `stopInterlockEnabled` (R26). -/
inductive Switch where
  | disabled
  | enabled
deriving DecidableEq, Repr, Inhabited

/-- The foreground phase `pc` (R31). -/
inductive Phase where
  | idle
  | exec
  | snap
  | apply
  | resp
  | resetAct
  | bootAct
deriving DecidableEq, Repr, Inhabited

end Sys2Proof.Machine

namespace Sys2Proof

/-- TEST_TAG and TEST_VALUE of R7: a type tag (u8, u16 or i32, R75) with a value of that type. -/
inductive TestConstant where
  | u8 (value : Byte)
  | u16 (value : Half)
  | i32 (value : Word)
deriving DecidableEq, Repr, Inhabited

/-- The byte values ENC_* of the five enums on the command port (R15). -/
structure EnumCodes where
  modeVelocity : Byte
  modePosition : Byte
  directionPositive : Byte
  directionNegative : Byte
  runStopped : Byte
  runRunning : Byte
  enableDisabled : Byte
  enableEnabled : Byte
  interlockDisabled : Byte
  interlockEnabled : Byte
deriving DecidableEq, Repr, Inhabited

/-- The reset values RESET_* of R7, one for each register of 10_state.md R39 that the table gives a value (log 15), and
one for the prescale counter, to which no rule gives one (log 10). `pkt`, the latches and the stop level have none: they
are draws (70_reset_and_hazards.md R241). -/
structure ResetValues where
  mode : Machine.Mode
  direction : Machine.Direction
  velocity : Half
  position : Word
  posSetpoint : Word
  travelVelocity : Half
  velSetpoint : Half
  dirSetpoint : Machine.Direction
  runStatus : Machine.RunStatus
  enable : Machine.Switch
  stopInterlockEnabled : Machine.Switch
  timerTop : Nat
  outputEnabled : Bool
  trigger : Bool
  dio : BitVec 8
  pc : Machine.Phase
  halted : Bool
  ie : Bool
  stepPending : Bool
  stopPending : Bool
  timerCount : Nat
  prescaleCount : Nat
deriving DecidableEq, Repr, Inhabited

/-- The parameters a model takes as arguments (R7).
They ride in State's field `cfg`, which no step writes (log 1). -/
structure Params where
  clockFrequency : Nat
  prescaler : Nat
  timerTopMin : Nat
  timerTopMax : Nat
  timerWidth : Nat
  /-- STOP_ACTIVE_LEVEL: the level at which the stop condition is asserted (R208). -/
  stopActiveLevel : Bool
  test : TestConstant
  enc : EnumCodes
  resets : ResetValues
deriving DecidableEq, Repr, Inhabited

/-- The fixed diagnostic constant of TEST: the spec gives no value and no type (R192, 91_not_in_source.md N13; log 2). -/
opaque Config.testConstant : TestConstant

/-- What a byte of `pkt` that nothing has written reads as: unspecified (10_state.md R32, R39; log 6). -/
opaque Config.unwrittenByte : Nat → Byte

/-- A free byte for each draw: a response byte the spec leaves unspecified (R78), a byte of `pkt` after a Reset (R241; log 9). -/
opaque Config.freeByte : Nat → Byte

/-- A free u16 for each draw: the velocity latch after a Reset (R241; log 9). -/
opaque Config.freeHalf : Nat → Half

/-- A free bit for each draw: the stop input's level and the one-bit latches after a Reset (R241; log 9). -/
opaque Config.freeBit : Nat → Bool

/-- The enum codes of R15 (log 11). -/
def EnumCodes.default : EnumCodes :=
  { modeVelocity := 0, modePosition := 1
    directionPositive := 0, directionNegative := 1
    runStopped := 0, runRunning := 1
    enableDisabled := 0, enableEnabled := 1
    interlockDisabled := 0, interlockEnabled := 1 }

/-- The table of R39, the reference values of RESET_*; `timerTop` is the parameter timerTopMax. -/
def ResetValues.table (timerTopMax : Nat) : ResetValues :=
  { mode := .velocity, direction := .positive, velocity := 0, position := 0, posSetpoint := 0, travelVelocity := 0
    velSetpoint := 0, dirSetpoint := .positive, runStatus := .stopped, enable := .disabled
    stopInterlockEnabled := .disabled, timerTop := timerTopMax, outputEnabled := false, trigger := false, dio := 0
    pc := .idle, halted := false, ie := true, stepPending := false, stopPending := false, timerCount := 0
    prescaleCount := 0 }

/-- The reference set REF of R7, with the open TEST constant.
DESIGN CHOICE (log 1): the set State.reset carries. -/
def Params.ref : Params :=
  { clockFrequency := 16000000, prescaler := 8, timerTopMin := 39, timerTopMax := 8438, timerWidth := 16
    stopActiveLevel := true, test := Config.testConstant, enc := EnumCodes.default
    resets := ResetValues.table 8438 }

end Sys2Proof
end

