-- ==== Sys2Proof/Syntax.lean ====
section
/-! DEFINITION. The 28 host commands (30_encoding.md R80), one constructor per row of spec/opcode_table.json.
Every constructor holds the whole request but the id: the control byte and the four payload bytes, split into the
operand of the command's variant (R76) and the bytes beyond it, which the command ignores (R77). -/

namespace Sys2Proof

/-- The control byte of a request (R74): APPLY is 200, NO_APPLY is 201, every other value is reserved (R83). -/
inductive ControlByte where
  | apply
  | noApply
  | reserved (value : Byte)
deriving DecidableEq, Repr, Inhabited

/-- One constructor per assigned command, in the order of the table. -/
inductive Instr where
  | getPos (ctl : ControlByte) (payload : Word)
  | setPosSetpt (ctl : ControlByte) (operand : Word)
  | getPosSetpt (ctl : ControlByte) (payload : Word)
  | setVelSetpt (ctl : ControlByte) (operand : Half) (rest : Half)
  | getVelSetpt (ctl : ControlByte) (payload : Word)
  | getVel (ctl : ControlByte) (payload : Word)
  | setDirSetpt (ctl : ControlByte) (operand : Byte) (rest : BitVec 24)
  | getDirSetpt (ctl : ControlByte) (payload : Word)
  | setMode (ctl : ControlByte) (operand : Byte) (rest : BitVec 24)
  | getMode (ctl : ControlByte) (payload : Word)
  | setPosVel (ctl : ControlByte) (operand : Half) (rest : Half)
  | getPosVel (ctl : ControlByte) (payload : Word)
  | getPosErr (ctl : ControlByte) (payload : Word)
  | setZeroPos (ctl : ControlByte) (operand : Word)
  | getMaxVel (ctl : ControlByte) (payload : Word)
  | getMinVel (ctl : ControlByte) (payload : Word)
  | getStatus (ctl : ControlByte) (payload : Word)
  | setStatus (ctl : ControlByte) (operand : Byte) (rest : BitVec 24)
  | getDir (ctl : ControlByte) (payload : Word)
  | setEnable (ctl : ControlByte) (operand : Byte) (rest : BitVec 24)
  | getEnable (ctl : ControlByte) (payload : Word)
  | setDioHi (ctl : ControlByte) (operand : Byte) (rest : BitVec 24)
  | setDioLo (ctl : ControlByte) (operand : Byte) (rest : BitVec 24)
  | getExtInt (ctl : ControlByte) (payload : Word)
  | setExtInt (ctl : ControlByte) (operand : Byte) (rest : BitVec 24)
  | deviceReset (ctl : ControlByte) (payload : Word)
  | bootloaderMode (ctl : ControlByte) (payload : Word)
  | test (ctl : ControlByte) (payload : Word)
deriving DecidableEq, Repr

/-- The control byte of a command. -/
def Instr.ctl : Instr → ControlByte
  | .getPos c _ => c
  | .setPosSetpt c _ => c
  | .getPosSetpt c _ => c
  | .setVelSetpt c _ _ => c
  | .getVelSetpt c _ => c
  | .getVel c _ => c
  | .setDirSetpt c _ _ => c
  | .getDirSetpt c _ => c
  | .setMode c _ _ => c
  | .getMode c _ => c
  | .setPosVel c _ _ => c
  | .getPosVel c _ => c
  | .getPosErr c _ => c
  | .setZeroPos c _ => c
  | .getMaxVel c _ => c
  | .getMinVel c _ => c
  | .getStatus c _ => c
  | .setStatus c _ _ => c
  | .getDir c _ => c
  | .setEnable c _ _ => c
  | .getEnable c _ => c
  | .setDioHi c _ _ => c
  | .setDioLo c _ _ => c
  | .getExtInt c _ => c
  | .setExtInt c _ _ => c
  | .deviceReset c _ => c
  | .bootloaderMode c _ => c
  | .test c _ => c

/-- The two restart commands (45_cmd_system.md R190, R191), after which no mode update runs (R134). -/
def Instr.isRestart : Instr → Bool
  | .deviceReset _ _ => true
  | .bootloaderMode _ _ => true
  | .getPos _ _ => false
  | .setPosSetpt _ _ => false
  | .getPosSetpt _ _ => false
  | .setVelSetpt _ _ _ => false
  | .getVelSetpt _ _ => false
  | .getVel _ _ => false
  | .setDirSetpt _ _ _ => false
  | .getDirSetpt _ _ => false
  | .setMode _ _ _ => false
  | .getMode _ _ => false
  | .setPosVel _ _ _ => false
  | .getPosVel _ _ => false
  | .getPosErr _ _ => false
  | .setZeroPos _ _ => false
  | .getMaxVel _ _ => false
  | .getMinVel _ _ => false
  | .getStatus _ _ => false
  | .setStatus _ _ _ => false
  | .getDir _ _ => false
  | .setEnable _ _ _ => false
  | .getEnable _ _ => false
  | .setDioHi _ _ _ => false
  | .setDioLo _ _ _ => false
  | .getExtInt _ _ => false
  | .setExtInt _ _ _ => false
  | .test _ _ => false

end Sys2Proof
end

