-- ==== Sys2Proof/WellFormed.lean ====
section
/-! DEFINITION. Which terms of Instr a request can carry: the control byte is named APPLY or NO_APPLY where it is 200
or 201 (30_encoding.md R74, R83). Every other field is a full-width operand, valid at every value (R82, R86). -/

namespace Sys2Proof

/-- A reserved control byte is neither 200 nor 201 (R83). -/
def ControlByte.wf : ControlByte → Bool
  | .apply => true
  | .noApply => true
  | .reserved v => v != 200#8 && v != 201#8

/-- A command is well formed when its control byte is. -/
def Instr.wf (i : Instr) : Bool := i.ctl.wf

end Sys2Proof
end

