-- ==== Sys2Proof/Decode.lean ====
section
/-! DEFINITION. The command encoding (30_encoding.md): fields (R71 to R77, R81), the command map (R80), the decoder,
total on any six bytes (R82), and the encoder. Byte order is little-endian (20_memory.md R47). -/

namespace Sys2Proof

/-- A u16 from its bytes, the byte at the lower offset first (R47). -/
def Half.ofBytes (b0 b1 : Byte) : Half := b1 ++ b0

/-- Twenty-four bits from three bytes, the byte at the lowest offset first (R47). -/
def bits24OfBytes (b0 b1 b2 : Byte) : BitVec 24 := b2 ++ b1 ++ b0

/-- An i32 from its bytes, the byte at the lowest offset first (R47). -/
def Word.ofBytes (b0 b1 b2 b3 : Byte) : Word := b3 ++ b2 ++ b1 ++ b0

/-- Byte `k` of a value, byte 0 its least significant (R47). -/
def byteOf {n : Nat} (v : BitVec n) (k : Nat) : Byte := v.extractLsb' (8 * k) 8

/-- R74, R83: the control byte by its value. -/
def ControlByte.ofByte (b : Byte) : ControlByte :=
  if b = 200#8 then .apply else if b = 201#8 then .noApply else .reserved b

/-- R74: APPLY = 200, NO_APPLY = 201. -/
def ControlByte.toByte : ControlByte → Byte
  | .apply => 200#8
  | .noApply => 201#8
  | .reserved v => v

/-- The payload as an i32 (R77). -/
def Packet.i32 (p : Packet) : Word := Word.ofBytes p.payload0 p.payload1 p.payload2 p.payload3

/-- The payload as a u16 at offset 2 (R77). -/
def Packet.u16 (p : Packet) : Half := Half.ofBytes p.payload0 p.payload1

/-- The two payload bytes beyond a u16 (R77). -/
def Packet.beyondU16 (p : Packet) : Half := Half.ofBytes p.payload2 p.payload3

/-- The payload as a u8 at offset 2 (R77). -/
def Packet.u8 (p : Packet) : Byte := p.payload0

/-- The three payload bytes beyond a u8 (R77). -/
def Packet.beyondU8 (p : Packet) : BitVec 24 := bits24OfBytes p.payload1 p.payload2 p.payload3

/-- What a decoder answers (R82): one of the 28 commands, or UNKNOWN with the id, the rejection by name. -/
inductive Decoded where
  | command (i : Instr)
  | unknown (id : Byte)
deriving DecidableEq, Repr

/-- R80, R82: the id alone selects the command (R73); the fields are pulled out here and nowhere else. -/
def decode (p : Packet) : Decoded :=
  let ctl := ControlByte.ofByte p.controlByte
  match p.commandId.toNat with
  | 0 => .command (.getPos ctl p.i32)
  | 1 => .command (.setPosSetpt ctl p.i32)
  | 2 => .command (.getPosSetpt ctl p.i32)
  | 3 => .command (.setVelSetpt ctl p.u16 p.beyondU16)
  | 4 => .command (.getVelSetpt ctl p.i32)
  | 5 => .command (.getVel ctl p.i32)
  | 6 => .command (.setDirSetpt ctl p.u8 p.beyondU8)
  | 7 => .command (.getDirSetpt ctl p.i32)
  | 8 => .command (.setMode ctl p.u8 p.beyondU8)
  | 9 => .command (.getMode ctl p.i32)
  | 10 => .command (.setPosVel ctl p.u16 p.beyondU16)
  | 11 => .command (.getPosVel ctl p.i32)
  | 12 => .command (.getPosErr ctl p.i32)
  | 13 => .command (.setZeroPos ctl p.i32)
  | 14 => .command (.getMaxVel ctl p.i32)
  | 15 => .command (.getMinVel ctl p.i32)
  | 16 => .command (.getStatus ctl p.i32)
  | 17 => .command (.setStatus ctl p.u8 p.beyondU8)
  | 18 => .command (.getDir ctl p.i32)
  | 19 => .command (.setEnable ctl p.u8 p.beyondU8)
  | 20 => .command (.getEnable ctl p.i32)
  | 21 => .command (.setDioHi ctl p.u8 p.beyondU8)
  | 22 => .command (.setDioLo ctl p.u8 p.beyondU8)
  | 23 => .command (.getExtInt ctl p.i32)
  | 24 => .command (.setExtInt ctl p.u8 p.beyondU8)
  | 200 => .command (.deviceReset ctl p.i32)
  | 201 => .command (.bootloaderMode ctl p.i32)
  | 251 => .command (.test ctl p.i32)
  | _ => .unknown p.commandId

/-- A request whose payload is one i32 or four ignored bytes. -/
def Packet.ofI32 (id : Byte) (ctl : ControlByte) (v : Word) : Packet :=
  ⟨id, ctl.toByte, byteOf v 0, byteOf v 1, byteOf v 2, byteOf v 3⟩

/-- A request whose payload is a u16 and the two bytes beyond it. -/
def Packet.ofU16 (id : Byte) (ctl : ControlByte) (v rest : Half) : Packet :=
  ⟨id, ctl.toByte, byteOf v 0, byteOf v 1, byteOf rest 0, byteOf rest 1⟩

/-- A request whose payload is a u8 and the three bytes beyond it. -/
def Packet.ofU8 (id : Byte) (ctl : ControlByte) (v : Byte) (rest : BitVec 24) : Packet :=
  ⟨id, ctl.toByte, v, byteOf rest 0, byteOf rest 1, byteOf rest 2⟩

/-- The command id of each command (R80). -/
def Instr.commandId : Instr → Byte
  | .getPos _ _ => 0
  | .setPosSetpt _ _ => 1
  | .getPosSetpt _ _ => 2
  | .setVelSetpt _ _ _ => 3
  | .getVelSetpt _ _ => 4
  | .getVel _ _ => 5
  | .setDirSetpt _ _ _ => 6
  | .getDirSetpt _ _ => 7
  | .setMode _ _ _ => 8
  | .getMode _ _ => 9
  | .setPosVel _ _ _ => 10
  | .getPosVel _ _ => 11
  | .getPosErr _ _ => 12
  | .setZeroPos _ _ => 13
  | .getMaxVel _ _ => 14
  | .getMinVel _ _ => 15
  | .getStatus _ _ => 16
  | .setStatus _ _ _ => 17
  | .getDir _ _ => 18
  | .setEnable _ _ _ => 19
  | .getEnable _ _ => 20
  | .setDioHi _ _ _ => 21
  | .setDioLo _ _ _ => 22
  | .getExtInt _ _ => 23
  | .setExtInt _ _ _ => 24
  | .deviceReset _ _ => 200
  | .bootloaderMode _ _ => 201
  | .test _ _ => 251

/-- The six bytes of a command (R71, R76, R80). -/
def encode (i : Instr) : Packet :=
  match i with
  | .getPos c v => .ofI32 i.commandId c v
  | .setPosSetpt c v => .ofI32 i.commandId c v
  | .getPosSetpt c v => .ofI32 i.commandId c v
  | .setVelSetpt c v r => .ofU16 i.commandId c v r
  | .getVelSetpt c v => .ofI32 i.commandId c v
  | .getVel c v => .ofI32 i.commandId c v
  | .setDirSetpt c v r => .ofU8 i.commandId c v r
  | .getDirSetpt c v => .ofI32 i.commandId c v
  | .setMode c v r => .ofU8 i.commandId c v r
  | .getMode c v => .ofI32 i.commandId c v
  | .setPosVel c v r => .ofU16 i.commandId c v r
  | .getPosVel c v => .ofI32 i.commandId c v
  | .getPosErr c v => .ofI32 i.commandId c v
  | .setZeroPos c v => .ofI32 i.commandId c v
  | .getMaxVel c v => .ofI32 i.commandId c v
  | .getMinVel c v => .ofI32 i.commandId c v
  | .getStatus c v => .ofI32 i.commandId c v
  | .setStatus c v r => .ofU8 i.commandId c v r
  | .getDir c v => .ofI32 i.commandId c v
  | .setEnable c v r => .ofU8 i.commandId c v r
  | .getEnable c v => .ofI32 i.commandId c v
  | .setDioHi c v r => .ofU8 i.commandId c v r
  | .setDioLo c v r => .ofU8 i.commandId c v r
  | .getExtInt c v => .ofI32 i.commandId c v
  | .setExtInt c v r => .ofU8 i.commandId c v r
  | .deviceReset c v => .ofI32 i.commandId c v
  | .bootloaderMode c v => .ofI32 i.commandId c v
  | .test c v => .ofI32 i.commandId c v

/-- R81: the six bytes of a 48-bit word, byte 0 its bits 7:0. -/
def Packet.ofWord (w : BitVec 48) : Packet :=
  ⟨byteOf w 0, byteOf w 1, byteOf w 2, byteOf w 3, byteOf w 4, byteOf w 5⟩

/-- R81: the packet that a table row's `nbits` bits `w` stand for, every bit above them 0. -/
def Packet.ofTableWord (nbits w : Nat) : Packet := .ofWord (BitVec.ofNat 48 (w % 2 ^ nbits))

/-- The command the decoder reads from a table row's bits, none where it answers UNKNOWN. -/
def decodeTableWord (nbits w : Nat) : Option Instr :=
  match decode (.ofTableWord nbits w) with
  | .command i => some i
  | .unknown _ => none

end Sys2Proof
end

