-- ==== Sys2Proof/Machine/State.lean ====
section
/-! DEFINITION. Everything the spec gives the block as state (10_state.md, 70_reset_and_hazards.md R256), as plain
data, and the state after reset (R39). -/

namespace Sys2Proof.Machine

/-- The latch `tgtTrigger`: a bit or "keep" (R33). -/
inductive TriggerTarget where
  | keep
  | drive (value : Bool)
deriving DecidableEq, Repr, Inhabited

/-- The update latches (R33): written by a snapshot, read by its apply. -/
structure Latches where
  tgtVelocity : Half
  tgtDirection : Direction
  tgtOutput : Bool
  tgtTrigger : TriggerTarget
  /-- The mode the snapshot chose by. R121's apply does not read it (log 16). -/
  updMode : Mode
deriving DecidableEq, Repr, Inhabited

/-- The packet buffer (20_memory.md R46a) as (offset, byte) pairs, offsets strictly rising. An offset that is not listed
holds no value, so no entry can equal what it reads as (log 6). -/
abbrev Memory := List Host.Cell

/-- The output events of R36. -/
inductive OutputEvent where
  | stepPulse (d : Direction)
  | response (p : Packet)
  | deviceResetRequest
  | bootRequest
deriving DecidableEq, Repr

/-- What happens next: a step of one of the block's agents or an event of the environment (00_scope.md R5). -/
inductive Event where
  /-- The foreground's own next transaction: EXEC, SNAP, APPLY, RESET_ACT or BOOT_ACT (42_command_sequencer.md R131). -/
  | foreground
  /-- The environment delivers a request: ACCEPT (R132). -/
  | accept (p : Packet)
  /-- The environment takes the response: RESP (R137). -/
  | respond
  /-- The timer period expires (40_pulse_generator.md R104). -/
  | tick
  /-- One cycle of `clk`, timed refinement (70_reset_and_hazards.md R256). -/
  | clock
  /-- The synchronized stop level becomes `level` (60_exceptions.md R209). -/
  | stopLevelChange (level : Bool)
  /-- The step handler runs (60_exceptions.md R207). -/
  | stepIrq
  /-- The stop handler runs (60_exceptions.md R210). -/
  | stopIrq
  /-- External reset, with the level the stop input has then (70_reset_and_hazards.md R241). -/
  | reset (level : Bool)
deriving DecidableEq, Repr

/-- The whole state. Between two steps of the model one of the events of `agenda` happens. -/
structure State where
  /-- `mode` (R16). -/
  mode : Mode
  /-- `direction` (R17). -/
  direction : Direction
  /-- `velocity` (R18). -/
  velocity : Half
  /-- `position` (R19). -/
  position : Word
  /-- `positionParams.setpoint` (R20). -/
  posSetpoint : Word
  /-- `positionParams.travelVelocity` (R21). -/
  travelVelocity : Half
  /-- `velocityParams.setpoint` (R22). -/
  velSetpoint : Half
  /-- `velocityParams.directionSetpoint` (R23). -/
  dirSetpoint : Direction
  /-- `runStatus` (R24). -/
  runStatus : RunStatus
  /-- `enable` (R25). -/
  enable : Switch
  /-- `stopInterlockEnabled` (R26). -/
  stopInterlockEnabled : Switch
  /-- `timerTop` (R27). -/
  timerTop : Nat
  /-- `outputEnabled` (R28). -/
  outputEnabled : Bool
  /-- `trigger` (R29). -/
  trigger : Bool
  /-- `dio`, bit i is output i (R30). -/
  dio : BitVec 8
  /-- `pc` (R31). -/
  pc : Phase
  /-- `pkt` (R32). -/
  pkt : Memory
  /-- The foreground's update latches (R33). -/
  latches : Latches
  /-- `halted` (R38). -/
  halted : Bool
  /-- `IE` (R34). -/
  ie : Bool
  /-- `stepPending` (R35). -/
  stepPending : Bool
  /-- `stopPending` (R35). -/
  stopPending : Bool
  /-- `stopLevel` (R37). -/
  stopLevel : Bool
  /-- `timerCount`, timed refinement (R42, R256). -/
  timerCount : Nat
  /-- The prescale counter, timed refinement (R256; log 10). -/
  prescaleCount : Nat
  /-- The output history, oldest first (R36). -/
  history : List OutputEvent
  /-- The parameters of R7. The model's own field: no step writes it (log 1). -/
  cfg : Params
  /-- The events still to happen, the next one first. The model's own field (log 3). -/
  agenda : List Event
  /-- How many free values have been drawn. The model's own field (log 9). -/
  draws : Nat
deriving DecidableEq, Repr

/-- The block raises no exception and nothing in it is a fault or a stuck state (60_exceptions.md R201,
93_implementation_defined.md part 1), so there is no fault: no step ever ends in one (log 12). -/
inductive Fault where
deriving DecidableEq, Repr

/-- Why a command has no meaning in the model. -/
inductive Refusal where
  /-- Raised by an arm of `exec` whose command has no meaning yet; no arm is such. Safe. -/
  | notModelled (mnemonic : String)
deriving DecidableEq, Repr

/-- The latches of State.reset.
DESIGN CHOICE (log 7, unsafe): R39 leaves them unspecified. -/
def Latches.reset : Latches :=
  { tgtVelocity := 0, tgtDirection := .positive, tgtOutput := false, tgtTrigger := .keep, updMode := .velocity }

/-- A block whose registers hold the reset values of its parameters (R7, R39). `pkt`, `latches` and `stopLevel` have the
values the logs 6, 7 and 8 name; `cfg`, `agenda` and `draws` are the model's own (logs 1, 3, 9). -/
def State.ofResets (p : Params) : State :=
  { mode := p.resets.mode
    direction := p.resets.direction
    velocity := p.resets.velocity
    position := p.resets.position
    posSetpoint := p.resets.posSetpoint
    travelVelocity := p.resets.travelVelocity
    velSetpoint := p.resets.velSetpoint
    dirSetpoint := p.resets.dirSetpoint
    runStatus := p.resets.runStatus
    enable := p.resets.enable
    stopInterlockEnabled := p.resets.stopInterlockEnabled
    timerTop := p.resets.timerTop
    outputEnabled := p.resets.outputEnabled
    trigger := p.resets.trigger
    dio := p.resets.dio
    pc := p.resets.pc
    pkt := []
    latches := Latches.reset
    halted := p.resets.halted
    ie := p.resets.ie
    stepPending := p.resets.stepPending
    stopPending := p.resets.stopPending
    stopLevel := false
    timerCount := p.resets.timerCount
    prescaleCount := p.resets.prescaleCount
    history := []
    cfg := p
    agenda := []
    draws := 0 }

/-- R39, R243: the block right after reset, with the parameters REF and the reset values of R39's table (logs 1, 15). -/
def State.reset : State := State.ofResets Params.ref

end Sys2Proof.Machine
end

