-- ==== Sys2Proof/Machine/Ops.lean ====
section
/-! DEFINITION. The named operations every meaning is built from: the packet buffer (20_memory.md), the free values,
the arbiter's critical sections (R56, R57), interrupt entry and return (60_exceptions.md R205, R206), the output
history, the response (30_encoding.md R78), and the reset (70_reset_and_hazards.md R241). -/

namespace Sys2Proof.Machine

/-! ### The packet buffer -/

/-- A byte offset of the packet buffer: 0 to 5, and no other exists (R46a). -/
abbrev Offset := Fin 6

/-- The byte at an offset, none where nothing has been written. -/
def Memory.read : Memory → Nat → Option Byte
  | [], _ => none
  | (a, v) :: rest, k => if a = k then some v else Memory.read rest k

/-- The buffer with one byte written, its entry in its place. -/
def Memory.write : Memory → Nat → Byte → Memory
  | [], k, v => [(k, v)]
  | (a, w) :: rest, k, v =>
    if a < k then (a, w) :: Memory.write rest k v
    else if a = k then (k, v) :: rest
    else (k, v) :: (a, w) :: rest

/-- Canonical from an offset on: offsets rise strictly and stay in the buffer. -/
def Memory.wfFrom : Nat → Memory → Bool
  | _, [] => true
  | lo, (a, _) :: rest => decide (lo ≤ a) && decide (a < 6) && Memory.wfFrom (a + 1) rest

/-- The canonical form of the packet buffer. -/
def Memory.wf (m : Memory) : Bool := Memory.wfFrom 0 m

/-- The buffer after MemWrites of single bytes, the first of the list first. -/
def Memory.writeBytes : Memory → List (Offset × Byte) → Memory
  | m, [] => m
  | m, (a, v) :: rest => Memory.writeBytes (Memory.write m a.val v) rest

/-- MemRead(a, 1). A byte nothing has written is unspecified (R32): it reads as a free value (log 6). -/
def State.pktByte (s : State) (a : Offset) : Byte := (Memory.read s.pkt a.val).getD (Config.unwrittenByte a.val)

/-- The six bytes of the buffer. -/
def State.packet (s : State) : Packet :=
  ⟨s.pktByte 0, s.pktByte 1, s.pktByte 2, s.pktByte 3, s.pktByte 4, s.pktByte 5⟩

/-- The writes that put a whole packet into the buffer (R132). -/
def packetCells (p : Packet) : List (Offset × Byte) :=
  [(0, p.commandId), (1, p.controlByte), (2, p.payload0), (3, p.payload1), (4, p.payload2), (5, p.payload3)]

/-- MemWrite(2, 2, v), little-endian (R47). -/
def payload16Cells (v : Half) : List (Offset × Byte) := [(2, byteOf v 0), (3, byteOf v 1)]

/-- MemWrite(2, 4, v), little-endian (R47). -/
def payload32Cells (v : Word) : List (Offset × Byte) :=
  [(2, byteOf v 0), (3, byteOf v 1), (4, byteOf v 2), (5, byteOf v 3)]

/-- The buffer with all six bytes replaced (R132). -/
def State.setPacket (s : State) (p : Packet) : State := { s with pkt := Memory.writeBytes s.pkt (packetCells p) }

/-! ### Small updates -/

/-- `pc <- p`. -/
def State.setPc (s : State) (p : Phase) : State := { s with pc := p }

/-- `emit e`: the event joins the history at its end (R36). -/
def State.emit (s : State) (e : OutputEvent) : State := { s with history := s.history ++ [e] }

/-- The byte drawn after `k` others: a fresh free value (log 9). -/
def State.drawnByte (s : State) (k : Nat) : Byte := Config.freeByte (s.draws + k)

/-! ### Responses (R78) -/

/-- The writes of a response with variant u8: tag 0, the value at offset 2, offsets 3 to 5 unspecified. -/
def responseU8Cells (v d0 d1 d2 : Byte) : List (Offset × Byte) := [(1, 0), (2, v), (3, d0), (4, d1), (5, d2)]

/-- The writes of a response with variant u16: tag 1, the value at offset 2, offsets 4 and 5 unspecified. -/
def responseU16Cells (v : Half) (d0 d1 : Byte) : List (Offset × Byte) := (1, 1) :: payload16Cells v ++ [(4, d0), (5, d1)]

/-- The writes of a response with variant i32: tag 2, the value at offset 2. -/
def responseI32Cells (v : Word) : List (Offset × Byte) := (1, 2) :: payload32Cells v

/-- Response with variant u8; the three bytes beyond it are free values. -/
def State.respondU8 (s : State) (v : Byte) : State :=
  { s with
    pkt := Memory.writeBytes s.pkt (responseU8Cells v (s.drawnByte 0) (s.drawnByte 1) (s.drawnByte 2))
    draws := s.draws + 3 }

/-- Response with variant u16; the two bytes beyond it are free values. -/
def State.respondU16 (s : State) (v : Half) : State :=
  { s with
    pkt := Memory.writeBytes s.pkt (responseU16Cells v (s.drawnByte 0) (s.drawnByte 1))
    draws := s.draws + 2 }

/-- Response with variant i32. -/
def State.respondI32 (s : State) (v : Word) : State :=
  { s with pkt := Memory.writeBytes s.pkt (responseI32Cells v) }

/-! ### The critical-section arbiter -/

/-- CS_ENTER (R56): the saved enable, and the state with interrupts off. -/
def csEnter (s : State) : Bool × State := (s.ie, { s with ie := false })

/-- CS_EXIT (R57): the enable is restored, not set. -/
def csExit (saved : Bool) (s : State) : State := { s with ie := saved }

/-- A critical section: CS_ENTER, the body, CS_EXIT on every path (logs 14, 17). -/
def critical (body : State → State) (s : State) : State :=
  let (saved, entered) := csEnter s
  csExit saved (body entered)

/-- What a command or a step answers. -/
abbrev Result := Host.Outcome State Fault Refusal

/-- R133, EXEC: the command's action in one critical section, then the next phase. `pkt` byte 0 is written by no
action, so the id is echoed. -/
def execTransaction (next : Phase) (action : State → State) (s : State) : Result :=
  .next ((critical action s).setPc next)

/-! ### Interrupts -/

/-- The two interrupt sources (60_exceptions.md R202). -/
inductive IrqSource where
  | step
  | stop
deriving DecidableEq, Repr

/-- A source's request bit (R202). -/
def State.pending (s : State) : IrqSource → Bool
  | .step => s.stepPending
  | .stop => s.stopPending

/-- R204: when a handler may be entered. -/
def State.canTake (s : State) (src : IrqSource) : Bool := s.ie && s.pending src && !s.halted

/-- R205, taking a request: interrupts off and the request bit cleared. Nothing is saved, since no handler touches
`pc`, `pkt` or the latches. -/
def takeInterrupt (src : IrqSource) (s : State) : State :=
  match src with
  | .step => { s with ie := false, stepPending := false }
  | .stop => { s with ie := false, stopPending := false }

/-- R206, the return: interrupts on; the foreground resumes in the phase it was in. -/
def returnFromInterrupt (s : State) : State := { s with ie := true }

/-- A handler as one transaction (R53): entry, body, return. -/
def runHandler (src : IrqSource) (body : State → State) (s : State) : State :=
  returnFromInterrupt (body (takeInterrupt src s))

/-! ### Reset -/

/-- The bytes `pkt` holds after a Reset: unspecified (R241). -/
def drawnPacket (n : Nat) : Packet :=
  ⟨Config.freeByte n, Config.freeByte (n + 1), Config.freeByte (n + 2), Config.freeByte (n + 3),
    Config.freeByte (n + 4), Config.freeByte (n + 5)⟩

/-- The latches after a Reset: unspecified (R241). -/
def drawnLatches (n : Nat) : Latches :=
  { tgtVelocity := Config.freeHalf n
    tgtDirection := if Config.freeBit n then .negative else .positive
    tgtOutput := Config.freeBit (n + 1)
    tgtTrigger := if Config.freeBit (n + 2) then .drive (Config.freeBit (n + 3)) else .keep
    updMode := if Config.freeBit (n + 4) then .position else .velocity }

/-- R241: every register to its reset value RESET_* (R7, R39); `pkt` and the latches unspecified; the stop level the input's; the history
kept. The parameters and the agenda are not hardware and stay (log 20). -/
def resetBlock (level : Bool) (s : State) : State :=
  { State.ofResets s.cfg with
    pkt := Memory.writeBytes [] (packetCells (drawnPacket s.draws))
    latches := drawnLatches s.draws
    stopLevel := level
    history := s.history
    agenda := s.agenda
    draws := s.draws + 6 }

/-- The stop input's level at a reset the block asks for itself: a draw (R37, R241; log 8). -/
def State.drawnLevel (s : State) : Bool := Config.freeBit (s.draws + 5)

/-! ### The agenda and the fetch -/

/-- The next event: the agenda's first; with nothing listed, the foreground (log 3). -/
def State.nextEvent (s : State) : Event :=
  match s.agenda with
  | [] => .foreground
  | e :: _ => e

/-- The state once its next event is taken from the agenda. -/
def State.afterNext (s : State) : State := { s with agenda := s.agenda.tail }

/-- A delivered request in the buffer with the foreground about to run its EXEC as the next event: what ACCEPT leaves
(R132), whatever the block was doing before (log 13). -/
def State.loadRequest (s : State) (p : Packet) : State :=
  { s with
    pkt := Memory.writeBytes s.pkt (packetCells p)
    pc := .exec
    halted := false
    agenda := .foreground :: s.agenda }

end Sys2Proof.Machine
end

