-- ==== Sys2Proof/Machine/Generator.lean ====
section
/-! DEFINITION. The velocity-to-frequency divider and the step-pulse generator (40_pulse_generator.md), with the timed
refinement of its timer (70_reset_and_hazards.md R256, R257). -/

namespace Sys2Proof.Machine

/-! ### The divider: pure functions of the parameters, over unbounded integers (R107) -/

/-- `round` of R97: clockFrequency / (prescaler * v) to the nearest integer, a half rounded up. -/
def roundedRatio (p : Params) (v : Nat) : Nat :=
  (2 * p.clockFrequency + p.prescaler * v) / (2 * p.prescaler * v)

/-- The `t` of R97 before the clamp: a mathematical integer, -1 where the ratio rounds to 0. -/
def unclampedTop (p : Params) (v : Nat) : Int := (roundedRatio p v : Int) - 1

/-- R97. A velocity of 0 is outside the domain and no rule passes it; the function is total, as R97 says, by
answering timerTopMax. -/
def configurePulseRate (p : Params) (v : Nat) : Nat :=
  if v = 0 then p.timerTopMax
  else (max (p.timerTopMin : Int) (min (p.timerTopMax : Int) (unclampedTop p v))).toNat

/-- R98: floor(clockFrequency / (prescaler * (timerTopMin + 1))). -/
def maxVelocity (p : Params) : Nat := p.clockFrequency / (p.prescaler * (p.timerTopMin + 1))

/-- R99: ceil(clockFrequency / (prescaler * (timerTopMax + 1))). -/
def minVelocity (p : Params) : Nat :=
  (p.clockFrequency + p.prescaler * (p.timerTopMax + 1) - 1) / (p.prescaler * (p.timerTopMax + 1))

/-- The two codes of one enum differ (R7, R15). -/
def distinctCodes (e : EnumCodes) : Bool :=
  e.modeVelocity != e.modePosition && e.directionPositive != e.directionNegative &&
    e.runStopped != e.runRunning && e.enableDisabled != e.enableEnabled &&
    e.interlockDisabled != e.interlockEnabled

/-- The constraints on the parameters (00_scope.md R7, R8). -/
def validParams (p : Params) : Bool :=
  decide (0 < p.clockFrequency) && decide (0 < p.prescaler) && decide (p.timerTopMin ≤ p.timerTopMax) &&
    decide (0 < p.timerWidth) && decide (p.timerTopMax < 2 ^ p.timerWidth) &&
    decide (maxVelocity p ≤ 65535) && decide (1 ≤ minVelocity p) && decide (minVelocity p ≤ maxVelocity p) &&
    distinctCodes p.enc

/-- The constraint on the reset values (R7): the invariants of 10_state.md R40 hold of them, INV7 for either level of
the stop input, since that is a draw. The last line keeps them kept: an apply right after a reset would write latches no
snapshot computed (R33), and both counters stand in their ranges (R42, 70_reset_and_hazards.md R256). -/
def validResets (p : Params) : Bool :=
  decide (p.resets.velocity.toNat ≤ maxVelocity p) && decide (p.resets.velSetpoint.toNat ≤ maxVelocity p) &&
    decide (p.resets.travelVelocity.toNat ≤ maxVelocity p) &&
    decide (p.resets.outputEnabled = true ↔ 0 < p.resets.velocity.toNat) &&
    decide (p.resets.velocity.toNat = 0 ∨ minVelocity p ≤ p.resets.velocity.toNat) &&
    decide (p.timerTopMin ≤ p.resets.timerTop) && decide (p.resets.timerTop ≤ p.timerTopMax) &&
    decide (p.resets.stopPending = true → p.resets.stopInterlockEnabled = .enabled) &&
    decide (p.resets.stopInterlockEnabled = .enabled → p.resets.stopPending = false → p.resets.runStatus = .stopped) &&
    p.resets.ie &&
    decide (p.resets.pc ≠ .apply) && decide (p.resets.timerCount ≤ p.timerTopMax) &&
    decide (p.resets.prescaleCount < p.prescaler)

/-! ### The generator -/

/-- R100: the gate, and nothing else. -/
def setOutputEnabled (b : Bool) (s : State) : State := { s with outputEnabled := b }

/-- R104: a pulse in the direction register's direction while the gate is open, and the step request. -/
def tick (s : State) : State :=
  let pulsed := if s.outputEnabled then s.emit (.stepPulse s.direction) else s
  { pulsed with stepPending := true }

/-- One prescaled cycle of the timer (R256): at or above `timerTop` the count clears and a Tick occurs. -/
def timerCycle (s : State) : State :=
  if s.timerTop ≤ s.timerCount then tick { s with timerCount := 0 }
  else { s with timerCount := s.timerCount + 1 }

/-- One cycle of `clk` (R256): the prescale counter divides it by `prescaler` (log 10). -/
def clockCycle (s : State) : State :=
  if s.cfg.prescaler ≤ s.prescaleCount + 1 then timerCycle { s with prescaleCount := 0 }
  else { s with prescaleCount := s.prescaleCount + 1 }

end Sys2Proof.Machine
end

