-- ==== Sys2Proof/Machine/Operands.lean ====
section
/-! DEFINITION. The operand forms: enum bytes against the codes of 10_state.md R15 (30_encoding.md R79), the clamp
(44_cmd_set.md R175), output indices (45_cmd_system.md R188) and the i32 arithmetic (41_motion_mode.md R123). -/

namespace Sys2Proof.Machine

/-- A byte of a two-valued enum: one of its two codes, or no value of the enum (R79). -/
def readEnum {α : Type} (b : Byte) (code0 : Byte) (value0 : α) (code1 : Byte) (value1 : α) : Option α :=
  if b = code0 then some value0 else if b = code1 then some value1 else none

def Mode.ofByte (e : EnumCodes) (b : Byte) : Option Mode :=
  readEnum b e.modeVelocity Mode.velocity e.modePosition Mode.position

def Mode.toByte (e : EnumCodes) : Mode → Byte
  | .velocity => e.modeVelocity
  | .position => e.modePosition

def Direction.ofByte (e : EnumCodes) (b : Byte) : Option Direction :=
  readEnum b e.directionPositive Direction.positive e.directionNegative Direction.negative

def Direction.toByte (e : EnumCodes) : Direction → Byte
  | .positive => e.directionPositive
  | .negative => e.directionNegative

def RunStatus.ofByte (e : EnumCodes) (b : Byte) : Option RunStatus :=
  readEnum b e.runStopped RunStatus.stopped e.runRunning RunStatus.running

def RunStatus.toByte (e : EnumCodes) : RunStatus → Byte
  | .stopped => e.runStopped
  | .running => e.runRunning

/-- The byte of `enable` (R15), tested in the order of R173. -/
def Switch.enableOfByte (e : EnumCodes) (b : Byte) : Option Switch :=
  readEnum b e.enableEnabled Switch.enabled e.enableDisabled Switch.disabled

def Switch.enableToByte (e : EnumCodes) : Switch → Byte
  | .disabled => e.enableDisabled
  | .enabled => e.enableEnabled

/-- The byte of `stopInterlockEnabled` (R15). -/
def Switch.interlockOfByte (e : EnumCodes) (b : Byte) : Option Switch :=
  readEnum b e.interlockDisabled Switch.disabled e.interlockEnabled Switch.enabled

def Switch.interlockToByte (e : EnumCodes) : Switch → Byte
  | .disabled => e.interlockDisabled
  | .enabled => e.interlockEnabled

/-- R175: min(v, maxVelocity()) on unsigned 16-bit values (log 18). -/
def clampVelocity (p : Params) (v : Half) : Half := BitVec.ofNat 16 (min v.toNat (maxVelocity p))

/-- R123: the position error `wrap_i32(setpoint - position)`, wrapping modulo 2^32. -/
def positionError (s : State) : Word := s.posSetpoint - s.position

/-- R118: the error is greater than 0, as a signed number. -/
def isPositive (error : Word) : Bool := decide (0 < error.toInt)

/-- R207: one step of the count, wrapping modulo 2^32. -/
def countOne (d : Direction) (position : Word) : Word :=
  match d with
  | .positive => position + 1
  | .negative => position - 1

/-- The outputs with output `i` driven to `level`; an index of 8 or more drives none (R186 to R188). -/
def driveOutput (level : Bool) (i : Byte) (dio : BitVec 8) : BitVec 8 :=
  if i.toNat < 8 then
    if level then dio ||| BitVec.twoPow 8 i.toNat else dio &&& ~~~BitVec.twoPow 8 i.toNat
  else dio

end Sys2Proof.Machine
end

