-- ==== Sys2Proof/Machine/Flags.lean ====
section
/-! DEFINITION. The conditions the rules test (60_exceptions.md R208, 42_command_sequencer.md R134, 44_cmd_set.md R172) and
the output ports as functions of the state (10_state.md R44). -/

namespace Sys2Proof.Machine

/-- `asserted()` (R208): the synchronized level is the active one. -/
def State.asserted (s : State) : Bool := s.stopLevel == s.cfg.stopActiveLevel

/-- R172: the interlock is enabled and the stop condition asserted. -/
def State.interlocked (s : State) : Bool := decide (s.stopInterlockEnabled = .enabled) && s.asserted

/-- R74, R83: the control byte asks for the update exactly when it is 200. -/
def asksApply : ControlByte → Bool
  | .apply => true
  | .noApply => false
  | .reserved _ => false

/-- The phase after EXEC of a command that honours apply (R133, R134). -/
def phaseAfterExec (ctl : ControlByte) : Phase := if asksApply ctl then .snap else .resp

/-- What the direction line shows (R101). -/
inductive DirLine where
  | positive
  | negative
  | idle
deriving DecidableEq, Repr

/-- `req_ready` (R44). -/
def State.reqReady (s : State) : Bool := decide (s.pc = .idle) && !s.halted

/-- `resp_valid` (R44). -/
def State.respValid (s : State) : Bool := decide (s.pc = .resp)

/-- `resp_data` (R44). -/
def State.respData (s : State) : Packet := s.packet

/-- `dir_out` (R101): the direction while the gate is open, idle otherwise. -/
def State.dirOut (s : State) : DirLine :=
  if s.outputEnabled then
    match s.direction with
    | .positive => .positive
    | .negative => .negative
  else .idle

/-- `drv_enable_out` (R25). -/
def State.drvEnableOut (s : State) : Bool := decide (s.enable = .enabled)

/-- `trigger_out` (R29). -/
def State.triggerOut (s : State) : Bool := s.trigger

/-- `dio_out` (R30). -/
def State.dioOut (s : State) : BitVec 8 := s.dio

end Sys2Proof.Machine
end

