-- ==== Sys2Proof/Machine/Query.lean ====
section
/-! DEFINITION. The fourteen query commands (43_cmd_query.md): the EXEC transaction of each. The request payload is
ignored (R77); no register but `pkt` and `pc` is written (R160). -/

namespace Sys2Proof.Machine

/-- R146: GET_POS. -/
def execGetPos (ctl : ControlByte) (_payload : Word) (s : State) : Result :=
  execTransaction (phaseAfterExec ctl) (fun t => t.respondI32 t.position) s

/-- R147: GET_POS_SETPT. -/
def execGetPosSetpt (ctl : ControlByte) (_payload : Word) (s : State) : Result :=
  execTransaction (phaseAfterExec ctl) (fun t => t.respondI32 t.posSetpoint) s

/-- R148: GET_VEL_SETPT. -/
def execGetVelSetpt (ctl : ControlByte) (_payload : Word) (s : State) : Result :=
  execTransaction (phaseAfterExec ctl) (fun t => t.respondU16 t.velSetpoint) s

/-- R149: GET_VEL. -/
def execGetVel (ctl : ControlByte) (_payload : Word) (s : State) : Result :=
  execTransaction (phaseAfterExec ctl) (fun t => t.respondU16 t.velocity) s

/-- R150: GET_DIR_SETPT. -/
def execGetDirSetpt (ctl : ControlByte) (_payload : Word) (s : State) : Result :=
  execTransaction (phaseAfterExec ctl) (fun t => t.respondU8 (t.dirSetpoint.toByte t.cfg.enc)) s

/-- R151: GET_MODE. -/
def execGetMode (ctl : ControlByte) (_payload : Word) (s : State) : Result :=
  execTransaction (phaseAfterExec ctl) (fun t => t.respondU8 (t.mode.toByte t.cfg.enc)) s

/-- R152: GET_POS_VEL. -/
def execGetPosVel (ctl : ControlByte) (_payload : Word) (s : State) : Result :=
  execTransaction (phaseAfterExec ctl) (fun t => t.respondU16 t.travelVelocity) s

/-- R153: GET_POS_ERR, both registers of one state. -/
def execGetPosErr (ctl : ControlByte) (_payload : Word) (s : State) : Result :=
  execTransaction (phaseAfterExec ctl) (fun t => t.respondI32 (positionError t)) s

/-- R154: GET_MAX_VEL. The constant fits u16 under R8 (log 18). -/
def execGetMaxVel (ctl : ControlByte) (_payload : Word) (s : State) : Result :=
  execTransaction (phaseAfterExec ctl) (fun t => t.respondU16 (BitVec.ofNat 16 (maxVelocity t.cfg))) s

/-- R155: GET_MIN_VEL. The constant fits u16 under R8 (log 18). -/
def execGetMinVel (ctl : ControlByte) (_payload : Word) (s : State) : Result :=
  execTransaction (phaseAfterExec ctl) (fun t => t.respondU16 (BitVec.ofNat 16 (minVelocity t.cfg))) s

/-- R156: GET_STATUS. -/
def execGetStatus (ctl : ControlByte) (_payload : Word) (s : State) : Result :=
  execTransaction (phaseAfterExec ctl) (fun t => t.respondU8 (t.runStatus.toByte t.cfg.enc)) s

/-- R157: GET_DIR. -/
def execGetDir (ctl : ControlByte) (_payload : Word) (s : State) : Result :=
  execTransaction (phaseAfterExec ctl) (fun t => t.respondU8 (t.direction.toByte t.cfg.enc)) s

/-- R158: GET_ENABLE. -/
def execGetEnable (ctl : ControlByte) (_payload : Word) (s : State) : Result :=
  execTransaction (phaseAfterExec ctl) (fun t => t.respondU8 (t.enable.enableToByte t.cfg.enc)) s

/-- R159: GET_EXT_INT. -/
def execGetExtInt (ctl : ControlByte) (_payload : Word) (s : State) : Result :=
  execTransaction (phaseAfterExec ctl) (fun t => t.respondU8 (t.stopInterlockEnabled.interlockToByte t.cfg.enc)) s

end Sys2Proof.Machine
end

