-- ==== Sys2Proof/Machine/Setter.lean ====
section
/-! DEFINITION. The nine setter commands (44_cmd_set.md): the EXEC transaction of each. The operand is validated, the
register written or not, and its value after the action answered (R141), all in one critical section. -/

namespace Sys2Proof.Machine

/-- R166: any i32, no clamp. -/
def writePosSetpoint (operand : Word) (s : State) : State := { s with posSetpoint := operand }

/-- R167. -/
def writeVelSetpoint (operand : Half) (s : State) : State := { s with velSetpoint := clampVelocity s.cfg operand }

/-- R170. -/
def writeTravelVelocity (operand : Half) (s : State) : State :=
  { s with travelVelocity := clampVelocity s.cfg operand }

/-- R171: both registers shift together, each wrapping. -/
def shiftZero (operand : Word) (s : State) : State :=
  { s with position := s.position - operand, posSetpoint := s.posSetpoint - operand }

/-- R168: any other byte writes nothing. -/
def writeDirSetpoint (operand : Byte) (s : State) : State :=
  { s with dirSetpoint := (Direction.ofByte s.cfg.enc operand).getD s.dirSetpoint }

/-- R169: any other byte writes nothing. -/
def writeMode (operand : Byte) (s : State) : State :=
  { s with mode := (Mode.ofByte s.cfg.enc operand).getD s.mode }

/-- R172: STOPPED always, RUNNING unless the interlock is enabled and the stop condition asserted. -/
def writeRunStatus (operand : Byte) (s : State) : State :=
  match RunStatus.ofByte s.cfg.enc operand with
  | some .stopped => { s with runStatus := .stopped }
  | some .running => if s.interlocked then s else { s with runStatus := .running }
  | none => s

/-- R173: any other byte writes nothing. -/
def writeEnable (operand : Byte) (s : State) : State :=
  { s with enable := (Switch.enableOfByte s.cfg.enc operand).getD s.enable }

/-- R174: DISABLED always, dropping a pending stop request; ENABLED unless the stop condition is asserted. -/
def writeInterlock (operand : Byte) (s : State) : State :=
  match Switch.interlockOfByte s.cfg.enc operand with
  | some .disabled => { s with stopInterlockEnabled := .disabled, stopPending := false }
  | some .enabled => if s.asserted then s else { s with stopInterlockEnabled := .enabled }
  | none => s

/-- R166: SET_POS_SETPT. -/
def execSetPosSetpt (ctl : ControlByte) (operand : Word) (s : State) : Result :=
  execTransaction (phaseAfterExec ctl)
    (fun t => (writePosSetpoint operand t).respondI32 (writePosSetpoint operand t).posSetpoint) s

/-- R167: SET_VEL_SETPT. -/
def execSetVelSetpt (ctl : ControlByte) (operand : Half) (_rest : Half) (s : State) : Result :=
  execTransaction (phaseAfterExec ctl)
    (fun t => (writeVelSetpoint operand t).respondU16 (writeVelSetpoint operand t).velSetpoint) s

/-- R168: SET_DIR_SETPT. -/
def execSetDirSetpt (ctl : ControlByte) (operand : Byte) (_rest : BitVec 24) (s : State) : Result :=
  execTransaction (phaseAfterExec ctl)
    (fun t => (writeDirSetpoint operand t).respondU8 ((writeDirSetpoint operand t).dirSetpoint.toByte t.cfg.enc)) s

/-- R169: SET_MODE. -/
def execSetMode (ctl : ControlByte) (operand : Byte) (_rest : BitVec 24) (s : State) : Result :=
  execTransaction (phaseAfterExec ctl)
    (fun t => (writeMode operand t).respondU8 ((writeMode operand t).mode.toByte t.cfg.enc)) s

/-- R170: SET_POS_VEL. -/
def execSetPosVel (ctl : ControlByte) (operand : Half) (_rest : Half) (s : State) : Result :=
  execTransaction (phaseAfterExec ctl)
    (fun t => (writeTravelVelocity operand t).respondU16 (writeTravelVelocity operand t).travelVelocity) s

/-- R171: SET_ZERO_POS. -/
def execSetZeroPos (ctl : ControlByte) (operand : Word) (s : State) : Result :=
  execTransaction (phaseAfterExec ctl) (fun t => (shiftZero operand t).respondI32 (shiftZero operand t).position) s

/-- R172: SET_STATUS. -/
def execSetStatus (ctl : ControlByte) (operand : Byte) (_rest : BitVec 24) (s : State) : Result :=
  execTransaction (phaseAfterExec ctl)
    (fun t => (writeRunStatus operand t).respondU8 ((writeRunStatus operand t).runStatus.toByte t.cfg.enc)) s

/-- R173: SET_ENABLE. -/
def execSetEnable (ctl : ControlByte) (operand : Byte) (_rest : BitVec 24) (s : State) : Result :=
  execTransaction (phaseAfterExec ctl)
    (fun t => (writeEnable operand t).respondU8 ((writeEnable operand t).enable.enableToByte t.cfg.enc)) s

/-- R174: SET_EXT_INT. -/
def execSetExtInt (ctl : ControlByte) (operand : Byte) (_rest : BitVec 24) (s : State) : Result :=
  execTransaction (phaseAfterExec ctl)
    (fun t => (writeInterlock operand t).respondU8
      ((writeInterlock operand t).stopInterlockEnabled.interlockToByte t.cfg.enc)) s

end Sys2Proof.Machine
end

