-- ==== Sys2Proof/Machine/System.lean ====
section
/-! DEFINITION. The output, restart and diagnostic commands and the unknown ids (45_cmd_system.md): the EXEC
transaction of each, and the two restart actions. -/

namespace Sys2Proof.Machine

/-- R186: SET_DIO_HI. The index is echoed as received (R188). -/
def execSetDioHi (ctl : ControlByte) (operand : Byte) (_rest : BitVec 24) (s : State) : Result :=
  execTransaction (phaseAfterExec ctl)
    (fun t => ({ t with dio := driveOutput true operand t.dio }).respondU8 operand) s

/-- R187: SET_DIO_LO. The index is echoed as received (R188). -/
def execSetDioLo (ctl : ControlByte) (operand : Byte) (_rest : BitVec 24) (s : State) : Result :=
  execTransaction (phaseAfterExec ctl)
    (fun t => ({ t with dio := driveOutput false operand t.dio }).respondU8 operand) s

/-- R190: the EXEC of DEVICE_RESET writes nothing; no update follows, whatever the control byte (R134). The restart is
`resetAction`, after the response is taken. -/
def execDeviceReset (_ctl : ControlByte) (_payload : Word) (s : State) : Result := execTransaction .resp id s

/-- R191: the EXEC of BOOTLOADER_MODE writes nothing; no update follows, whatever the control byte (R134). The restart
is `bootAction`, after the response is taken. -/
def execBootloaderMode (_ctl : ControlByte) (_payload : Word) (s : State) : Result := execTransaction .resp id s

/-- R192: the constant's tag and value, from the parameters alone. -/
def respondTest (s : State) : State :=
  match s.cfg.test with
  | .u8 v => s.respondU8 v
  | .u16 v => s.respondU16 v
  | .i32 v => s.respondI32 v

/-- R192: TEST. -/
def execTest (ctl : ControlByte) (_payload : Word) (s : State) : Result :=
  execTransaction (phaseAfterExec ctl) respondTest s

/-- R193, R84: the EXEC of an unknown id does nothing and runs no update. -/
def execUnknown (s : State) : Result := execTransaction .resp id s

/-- R190, RESET_ACT: the request event, then Reset. -/
def resetAction (s : State) : State := resetBlock s.drawnLevel (s.emit .deviceResetRequest)

/-- R191, BOOT_ACT: the request event, Reset, and the halt. -/
def bootAction (s : State) : State := { resetBlock s.drawnLevel (s.emit .bootRequest) with halted := true }

end Sys2Proof.Machine
end

