-- ==== Sys2Proof/Machine/Dispatch.lean ====
section
/-! DEFINITION. One arm per command: the meaning of its EXEC transaction (42_command_sequencer.md R133). -/

namespace Sys2Proof.Machine

def exec (i : Instr) (s : State) : Host.Outcome State Fault Refusal :=
  match i with
  | .getPos ctl payload => Sys2Proof.Machine.execGetPos ctl payload s
  | .setPosSetpt ctl operand => Sys2Proof.Machine.execSetPosSetpt ctl operand s
  | .getPosSetpt ctl payload => Sys2Proof.Machine.execGetPosSetpt ctl payload s
  | .setVelSetpt ctl operand rest => Sys2Proof.Machine.execSetVelSetpt ctl operand rest s
  | .getVelSetpt ctl payload => Sys2Proof.Machine.execGetVelSetpt ctl payload s
  | .getVel ctl payload => Sys2Proof.Machine.execGetVel ctl payload s
  | .setDirSetpt ctl operand rest => Sys2Proof.Machine.execSetDirSetpt ctl operand rest s
  | .getDirSetpt ctl payload => Sys2Proof.Machine.execGetDirSetpt ctl payload s
  | .setMode ctl operand rest => Sys2Proof.Machine.execSetMode ctl operand rest s
  | .getMode ctl payload => Sys2Proof.Machine.execGetMode ctl payload s
  | .setPosVel ctl operand rest => Sys2Proof.Machine.execSetPosVel ctl operand rest s
  | .getPosVel ctl payload => Sys2Proof.Machine.execGetPosVel ctl payload s
  | .getPosErr ctl payload => Sys2Proof.Machine.execGetPosErr ctl payload s
  | .setZeroPos ctl operand => Sys2Proof.Machine.execSetZeroPos ctl operand s
  | .getMaxVel ctl payload => Sys2Proof.Machine.execGetMaxVel ctl payload s
  | .getMinVel ctl payload => Sys2Proof.Machine.execGetMinVel ctl payload s
  | .getStatus ctl payload => Sys2Proof.Machine.execGetStatus ctl payload s
  | .setStatus ctl operand rest => Sys2Proof.Machine.execSetStatus ctl operand rest s
  | .getDir ctl payload => Sys2Proof.Machine.execGetDir ctl payload s
  | .setEnable ctl operand rest => Sys2Proof.Machine.execSetEnable ctl operand rest s
  | .getEnable ctl payload => Sys2Proof.Machine.execGetEnable ctl payload s
  | .setDioHi ctl operand rest => Sys2Proof.Machine.execSetDioHi ctl operand rest s
  | .setDioLo ctl operand rest => Sys2Proof.Machine.execSetDioLo ctl operand rest s
  | .getExtInt ctl payload => Sys2Proof.Machine.execGetExtInt ctl payload s
  | .setExtInt ctl operand rest => Sys2Proof.Machine.execSetExtInt ctl operand rest s
  | .deviceReset ctl payload => Sys2Proof.Machine.execDeviceReset ctl payload s
  | .bootloaderMode ctl payload => Sys2Proof.Machine.execBootloaderMode ctl payload s
  | .test ctl payload => Sys2Proof.Machine.execTest ctl payload s

end Sys2Proof.Machine
end

