-- ==== Sys2Proof/Machine/Controller.lean ====
section
/-! DEFINITION. The motion-mode controller (41_motion_mode.md): the targets of the two update procedures, the snapshot
and the apply. -/

namespace Sys2Proof.Machine

/-- R118: the targets of `positionModeUpdate`. -/
def positionTargets (s : State) : Latches :=
  let error := positionError s
  let moves := error != 0 && decide (s.runStatus = .running) && decide (minVelocity s.cfg ≤ s.travelVelocity.toNat)
  { tgtVelocity := if moves then s.travelVelocity else 0
    tgtDirection := if isPositive error then .positive else .negative
    tgtOutput := moves
    tgtTrigger := .keep
    updMode := .position }

/-- R119: the targets of `velocityModeUpdate`. -/
def velocityTargets (s : State) : Latches :=
  let moves := decide (s.runStatus = .running) && decide (minVelocity s.cfg ≤ s.velSetpoint.toNat)
  { tgtVelocity := if moves then s.velSetpoint else 0
    tgtDirection := s.dirSetpoint
    tgtOutput := moves
    tgtTrigger := .drive moves
    updMode := .velocity }

/-- R116: the procedure of the current mode. -/
def modeTargets (s : State) : Latches :=
  match s.mode with
  | .position => positionTargets s
  | .velocity => velocityTargets s

/-- The trigger after an apply (R121). -/
def TriggerTarget.apply (t : TriggerTarget) (trigger : Bool) : Bool :=
  match t with
  | .keep => trigger
  | .drive value => value

/-- The side effects of an apply (R121), without its critical section. -/
def writeTargets (t : Latches) (s : State) : State :=
  setOutputEnabled t.tgtOutput
    { s with
      direction := t.tgtDirection
      velocity := t.tgtVelocity
      timerTop := if 0 < t.tgtVelocity.toNat then configurePulseRate s.cfg t.tgtVelocity.toNat else s.timerTop
      trigger := t.tgtTrigger.apply s.trigger }

/-- R121: every side effect in one critical section. -/
def applyTargets (t : Latches) (s : State) : State := critical (writeTargets t) s

/-- The foreground's SNAP (R117 to R119): every input read in one critical section, only the latches and `pc` written. -/
def snapTransaction (s : State) : State :=
  (critical (fun entered => { entered with latches := modeTargets entered }) s).setPc .apply

/-- The foreground's APPLY (R121): the latches as they are, stale or not. -/
def applyTransaction (s : State) : State := (applyTargets s.latches s).setPc .resp

/-- R122: an update inside the stop handler, snapshot and apply in one, with targets of its own. -/
def inlineUpdate (s : State) : State := applyTargets (modeTargets s) s

end Sys2Proof.Machine
end

