-- ==== Sys2Proof/Machine/Interrupts.lean ====
section
/-! DEFINITION. The stop input and the two interrupt handlers (60_exceptions.md). -/

namespace Sys2Proof.Machine

/-- R207, the body of the step handler: count when RUNNING and moving; in POSITION mode stop exactly on arrival, tested
on the value just written. -/
def stepBody (s : State) : State :=
  if s.runStatus = .running ∧ 0 < s.velocity.toNat then
    let counted := { s with position := countOne s.direction s.position }
    if counted.mode = .position ∧ counted.position = counted.posSetpoint then
      { setOutputEnabled false counted with velocity := 0 }
    else counted
  else s

/-- R207: the step handler, one transaction. -/
def stepHandler (s : State) : State := runHandler .step stepBody s

/-- R210, what the stop handler zeroes: the active mode's in-motion target. -/
def zeroTarget (s : State) : State :=
  match s.mode with
  | .position => { s with posSetpoint := s.position }
  | .velocity => { s with velSetpoint := 0 }

/-- R210, the body of the stop handler. The level is not looked at again (corner case a). -/
def stopBody (s : State) : State :=
  if s.stopInterlockEnabled = .enabled then inlineUpdate (zeroTarget { s with runStatus := .stopped }) else s

/-- R210: the stop handler, one transaction. -/
def stopHandler (s : State) : State := runHandler .stop stopBody s

/-- R209: the synchronized level changes; the asserting edge raises the request while the interlock is enabled. -/
def stopLevelChange (level : Bool) (s : State) : State :=
  let changed := { s with stopLevel := level }
  if !s.asserted && changed.asserted && decide (s.stopInterlockEnabled = .enabled) then
    { changed with stopPending := true }
  else changed

/-- A handler runs if R204 lets it; otherwise it is not entered and nothing happens (log 4). -/
def tryHandler (src : IrqSource) (s : State) : State :=
  if s.canTake src then
    match src with
    | .step => stepHandler s
    | .stop => stopHandler s
  else s

end Sys2Proof.Machine
end

