-- ==== Sys2Proof/Machine/Sequencer.lean ====
section
/-! DEFINITION. The foreground sequencer (42_command_sequencer.md) and what each event of the agenda does
(00_scope.md R5). -/

namespace Sys2Proof.Machine

/-- R132, ACCEPT: the six bytes into `pkt`. -/
def acceptRequest (p : Packet) (s : State) : State := (critical (fun t => t.setPacket p) s).setPc .exec

/-- R137: the phase after the response is handed over, by the id in the buffer. -/
def phaseAfterResp (id : Byte) : Phase :=
  if id = 200#8 then .resetAct else if id = 201#8 then .bootAct else .idle

/-- R137, RESP: the response is handed to the transport. -/
def handOver (s : State) : State :=
  (critical (fun t => t.emit (.response t.packet)) s).setPc (phaseAfterResp (s.pktByte 0))

/-- R133: EXEC of whatever the buffer holds. -/
def runBuffer (s : State) : Result :=
  match decode s.packet with
  | .command i => exec i s
  | .unknown _ => execUnknown s

/-- R131: the foreground's own transaction in each phase. In IDLE and RESP it waits on the transport. -/
def foreground (s : State) : Result :=
  match s.pc with
  | .idle => .next s
  | .exec => runBuffer s
  | .snap => .next (snapTransaction s)
  | .apply => .next (applyTransaction s)
  | .resp => .next s
  | .resetAct => .next (resetAction s)
  | .bootAct => .next (bootAction s)

/-- What an event does when it may act. An event that is not enabled changes nothing (log 4), a
request offered to a busy block among them (log 19). -/
def performActive (e : Event) (s : State) : Result :=
  match e with
  | .foreground => foreground s
  | .accept p => .next (if s.reqReady then acceptRequest p s else s)
  | .respond => .next (if s.respValid then handOver s else s)
  | .tick => .next (tick s)
  | .clock => .next (clockCycle s)
  | .stopLevelChange level => .next (stopLevelChange level s)
  | .stepIrq => .next (tryHandler .step s)
  | .stopIrq => .next (tryHandler .stop s)
  | .reset level => .next (resetBlock level s)

/-- The event is an external reset. -/
def Event.isReset : Event → Bool
  | .reset _ => true
  | .foreground => false
  | .accept _ => false
  | .respond => false
  | .tick => false
  | .clock => false
  | .stopLevelChange _ => false
  | .stepIrq => false
  | .stopIrq => false

/-- The event is one of the foreground's transactions (R213). -/
def Event.isForeground : Event → Bool
  | .foreground => true
  | .accept _ => true
  | .respond => true
  | .tick => false
  | .clock => false
  | .stopLevelChange _ => false
  | .stepIrq => false
  | .stopIrq => false
  | .reset _ => false

/-- R38, R241: while the block is halted only Reset does anything. -/
def perform (e : Event) (s : State) : Result :=
  if s.halted && !e.isReset then .next s else performActive e s

/-- One step: the next event, on the state without it. -/
def stepEvent (s : State) : Result := perform s.nextEvent s.afterNext

end Sys2Proof.Machine
end

