-- ==== Sys2Proof/Machine/Step.lean ====
section
/-! DEFINITION. One step of the model: the next event of the agenda (00_scope.md R6), and where a request lies for the
next step to run it. -/

namespace Sys2Proof.Machine

/-- R6: a step is one transaction of one agent or one event of the environment, the one the agenda lists first. -/
def step (s : State) : Host.Outcome State Fault Refusal := stepEvent s

/-- `s` with a table row's word as a request in `pkt` and its EXEC next (log 13). -/
def State.withFetchWord (s : State) (nbits w : Nat) : State := s.loadRequest (Packet.ofTableWord nbits w)

end Sys2Proof.Machine
end

