-- ==== Sys2Proof/Safety.lean ====
section
/-! DEFINITION. The terms in which claims about the block are stated: the invariants of 10_state.md R40 and their
conjunction, what a command answers (30_encoding.md R78), the timing premises over runs (60_exceptions.md R213,
70_reset_and_hazards.md R251), the fairness premises over endless runs (R105, R213) and the counts of pulses and positions. -/

namespace Sys2Proof.Machine

/-! ### Invariants (R40) -/

/-- INV1: the three velocity registers are at most maxVelocity(). -/
def VelocitiesBounded (s : State) : Prop :=
  s.velocity.toNat ≤ maxVelocity s.cfg ∧ s.velSetpoint.toNat ≤ maxVelocity s.cfg ∧
    s.travelVelocity.toNat ≤ maxVelocity s.cfg

/-- INV2: the gate is open exactly when the velocity is not 0. -/
def GateOpenIffMoving (s : State) : Prop := s.outputEnabled = true ↔ 0 < s.velocity.toNat

/-- INV3: the velocity is 0 or at least minVelocity(). -/
def VelocityAboveFloor (s : State) : Prop := s.velocity.toNat = 0 ∨ minVelocity s.cfg ≤ s.velocity.toNat

/-- INV4: the period register is in its range. -/
def TimerTopInRange (s : State) : Prop := s.cfg.timerTopMin ≤ s.timerTop ∧ s.timerTop ≤ s.cfg.timerTopMax

/-- INV6: a stop request is pending only under an enabled interlock. -/
def StopRequestNeedsInterlock (s : State) : Prop := s.stopPending = true → s.stopInterlockEnabled = .enabled

/-- INV7, the interlock: enabled, asserted and served, the block is STOPPED. -/
def InterlockHolds (s : State) : Prop :=
  s.stopInterlockEnabled = .enabled → s.stopLevel = s.cfg.stopActiveLevel → s.stopPending = false →
    s.runStatus = .stopped

/-- INV8: between two steps interrupts are enabled. -/
def InterruptsOn (s : State) : Prop := s.ie = true

/-- What the latches hold between a snapshot and its apply (41_motion_mode.md R121 corner case b): a velocity that is 0
with the gate closed, or lies in [minVelocity(), maxVelocity()] with the gate open. -/
def LatchesFit (s : State) : Prop :=
  s.pc = .apply →
    (s.latches.tgtOutput = true ↔ 0 < s.latches.tgtVelocity.toNat) ∧
      (s.latches.tgtVelocity.toNat = 0 ∨ minVelocity s.cfg ≤ s.latches.tgtVelocity.toNat) ∧
      s.latches.tgtVelocity.toNat ≤ maxVelocity s.cfg

/-- The counters of the timed refinement are in their ranges (10_state.md R42, 70_reset_and_hazards.md R256). -/
def TimerCountersInRange (s : State) : Prop :=
  s.timerCount ≤ s.cfg.timerTopMax ∧ s.prescaleCount < s.cfg.prescaler

/-- The invariants of R40 for parameters that meet R7 and R8, with what makes them inductive: the latches, the counters, and
the packet buffer in canonical form. INV5 is in the types. -/
structure BlockInv (s : State) : Prop where
  parameters : validParams s.cfg = true
  velocities : VelocitiesBounded s
  gate : GateOpenIffMoving s
  floor : VelocityAboveFloor s
  timerTop : TimerTopInRange s
  stopRequest : StopRequestNeedsInterlock s
  interlock : InterlockHolds s
  interrupts : InterruptsOn s
  latches : LatchesFit s
  counters : TimerCountersInRange s
  buffer : Memory.wf s.pkt = true
  resets : validResets s.cfg = true

/-! ### What a command answers -/

/-- The phase after the EXEC of a command that honours apply (R133, R134): SNAP when the control byte is APPLY. -/
def nextPhase (ctl : ControlByte) : Phase := if ctl = .apply then .snap else .resp

/-- Every field of `t` but the packet buffer, the phase and the count of free values is that of `s`. -/
def OnlyAnswerDiffers (s t : State) : Prop := t = { s with pkt := t.pkt, pc := t.pc, draws := t.draws }

/-- `t` is `s` with a u8 response in the buffer (R78) and the phase `next`: the tag and the value are written, offsets 3
to 5 hold anything, every other byte reads as in `s`. -/
def AnswersU8 (s t : State) (v : Byte) (next : Phase) : Prop :=
  OnlyAnswerDiffers s t ∧ t.pc = next ∧ t.pktByte 1 = 0 ∧ t.pktByte 2 = v ∧
    ∀ a : Nat, a = 0 ∨ 6 ≤ a → Memory.read t.pkt a = Memory.read s.pkt a

/-- `t` is `s` with a u16 response in the buffer (R78, R47) and the phase `next`; offsets 4 and 5 hold anything. -/
def AnswersU16 (s t : State) (v : Half) (next : Phase) : Prop :=
  OnlyAnswerDiffers s t ∧ t.pc = next ∧ t.pktByte 1 = 1 ∧ t.pktByte 2 = v.extractLsb' 0 8 ∧
    t.pktByte 3 = v.extractLsb' 8 8 ∧
    ∀ a : Nat, a = 0 ∨ 6 ≤ a → Memory.read t.pkt a = Memory.read s.pkt a

/-- `t` is `s` with an i32 response in the buffer (R78, R47) and the phase `next`. -/
def AnswersI32 (s t : State) (v : Word) (next : Phase) : Prop :=
  OnlyAnswerDiffers s t ∧ t.pc = next ∧ t.draws = s.draws ∧ t.pktByte 1 = 2 ∧ t.pktByte 2 = v.extractLsb' 0 8 ∧
    t.pktByte 3 = v.extractLsb' 8 8 ∧ t.pktByte 4 = v.extractLsb' 16 8 ∧ t.pktByte 5 = v.extractLsb' 24 8 ∧
    ∀ a : Nat, a = 0 ∨ 6 ≤ a → Memory.read t.pkt a = Memory.read s.pkt a

/-- `t` is `s` with the parameters' TEST constant as the response (45_cmd_system.md R192). -/
def AnswersTest (s t : State) (next : Phase) : Prop :=
  match s.cfg.test with
  | .u8 v => AnswersU8 s t v next
  | .u16 v => AnswersU16 s t v next
  | .i32 v => AnswersI32 s t v next

/-! ### Reset (R39, R241) -/

/-- Every register the reset table gives a value holds the value of `r` (10_state.md R39, 70_reset_and_hazards.md R241).
`pkt`, the latches, the stop level and `halted` are said apart. -/
structure HoldsResetValues (r : ResetValues) (t : State) : Prop where
  mode : t.mode = r.mode
  direction : t.direction = r.direction
  velocity : t.velocity = r.velocity
  position : t.position = r.position
  posSetpoint : t.posSetpoint = r.posSetpoint
  travelVelocity : t.travelVelocity = r.travelVelocity
  velSetpoint : t.velSetpoint = r.velSetpoint
  dirSetpoint : t.dirSetpoint = r.dirSetpoint
  runStatus : t.runStatus = r.runStatus
  enable : t.enable = r.enable
  stopInterlockEnabled : t.stopInterlockEnabled = r.stopInterlockEnabled
  timerTop : t.timerTop = r.timerTop
  outputEnabled : t.outputEnabled = r.outputEnabled
  trigger : t.trigger = r.trigger
  dio : t.dio = r.dio
  pc : t.pc = r.pc
  ie : t.ie = r.ie
  stepPending : t.stepPending = r.stepPending
  stopPending : t.stopPending = r.stopPending
  timerCount : t.timerCount = r.timerCount
  prescaleCount : t.prescaleCount = r.prescaleCount

/-! ### Which step a state is about to take -/

/-- The next step is the EXEC of the command `i`. -/
def Runs (s : State) (i : Instr) : Prop :=
  s.nextEvent = .foreground ∧ s.halted = false ∧ s.pc = .exec ∧ decode s.packet = .command i

/-- The next step is the foreground's transaction of the phase `p`. -/
def RunsPhase (s : State) (p : Phase) : Prop := s.nextEvent = .foreground ∧ s.halted = false ∧ s.pc = p

/-- The next step is a Reset, from outside or by a restart command (R242). -/
def Resets (s : State) : Prop := (∃ level, s.nextEvent = .reset level) ∨ RunsPhase s .resetAct ∨ RunsPhase s .bootAct

/-- The next step is the stop handler. -/
def RunsStopHandler (s : State) : Prop := s.nextEvent = .stopIrq ∧ s.canTake .stop = true

/-- The next step is the step handler. -/
def RunsStepHandler (s : State) : Prop := s.nextEvent = .stepIrq ∧ s.canTake .step = true

/-- The next step is an apply, the foreground's or the stop handler's. -/
def Applies (s : State) : Prop := RunsPhase s .apply ∨ RunsStopHandler s

/-- The next step is one of the foreground's transactions, ACCEPT and RESP among them. -/
def ForegroundMoves (s : State) : Prop := s.nextEvent.isForeground = true ∧ s.halted = false

/-- The writers table of 10_state.md R41 for a step from `s` to `t` that is no Reset: a register that changes is written
by one of the writers its row names, and with what the row says. The last three fields say the same of the registers
that have no row: `stopLevel` (R37), `halted` (R38) and the timer's counters (R42, 70_reset_and_hazards.md R256). -/
structure WritersRespected (s t : State) : Prop where
  mode : t.mode ≠ s.mode → ∃ c b r, Runs s (.setMode c b r)
  direction : t.direction ≠ s.direction → Applies s
  velocity : t.velocity ≠ s.velocity → Applies s ∨ (RunsStepHandler s ∧ t.velocity = 0)
  position : t.position ≠ s.position → (∃ c v, Runs s (.setZeroPos c v)) ∨
    (RunsStepHandler s ∧ (t.position = s.position + 1 ∨ t.position = s.position - 1))
  posSetpoint : t.posSetpoint ≠ s.posSetpoint → (∃ c v, Runs s (.setPosSetpt c v)) ∨ (∃ c v, Runs s (.setZeroPos c v)) ∨
    (RunsStopHandler s ∧ s.mode = .position ∧ t.posSetpoint = s.position)
  travelVelocity : t.travelVelocity ≠ s.travelVelocity → ∃ c v r, Runs s (.setPosVel c v r)
  velSetpoint : t.velSetpoint ≠ s.velSetpoint → (∃ c v r, Runs s (.setVelSetpt c v r)) ∨
    (RunsStopHandler s ∧ s.mode = .velocity ∧ t.velSetpoint = 0)
  dirSetpoint : t.dirSetpoint ≠ s.dirSetpoint → ∃ c b r, Runs s (.setDirSetpt c b r)
  runStatus : t.runStatus ≠ s.runStatus → (∃ c b r, Runs s (.setStatus c b r)) ∨
    (RunsStopHandler s ∧ t.runStatus = .stopped)
  enable : t.enable ≠ s.enable → ∃ c b r, Runs s (.setEnable c b r)
  stopInterlockEnabled : t.stopInterlockEnabled ≠ s.stopInterlockEnabled → ∃ c b r, Runs s (.setExtInt c b r)
  timerTop : t.timerTop ≠ s.timerTop → Applies s
  outputEnabled : t.outputEnabled ≠ s.outputEnabled → Applies s ∨ (RunsStepHandler s ∧ t.outputEnabled = false)
  trigger : t.trigger ≠ s.trigger → (RunsPhase s .apply ∧ s.latches.tgtTrigger ≠ .keep) ∨
    (RunsStopHandler s ∧ s.mode = .velocity)
  dio : t.dio ≠ s.dio → (∃ c b r, Runs s (.setDioHi c b r)) ∨ (∃ c b r, Runs s (.setDioLo c b r))
  stepPending : t.stepPending ≠ s.stepPending → s.nextEvent = .tick ∨ s.nextEvent = .clock ∨
    (RunsStepHandler s ∧ t.stepPending = false)
  stopPending : t.stopPending ≠ s.stopPending → (∃ level, s.nextEvent = .stopLevelChange level) ∨
    (RunsStopHandler s ∧ t.stopPending = false) ∨ ((∃ c b r, Runs s (.setExtInt c b r)) ∧ t.stopPending = false)
  pc : t.pc ≠ s.pc → ForegroundMoves s
  pkt : t.pkt ≠ s.pkt → ForegroundMoves s
  latches : t.latches ≠ s.latches → RunsPhase s .snap
  stopLevel : t.stopLevel ≠ s.stopLevel → s.nextEvent = .stopLevelChange t.stopLevel
  halted : t.halted = s.halted
  counters : t.timerCount ≠ s.timerCount ∨ t.prescaleCount ≠ s.prescaleCount → s.nextEvent = .clock

/-! ### Timing premises over the run from a state (R213, R251) -/

/-- The state after the next step. -/
def State.after (s : State) : State :=
  match step s with
  | .next t => t
  | .fault _ => s
  | .refused _ => s

/-- The next step makes a Tick: the transaction-level event, or the clock cycle at which the timer of the timed
refinement expires (R256). -/
def State.ticksNext (s : State) : Bool :=
  !s.halted &&
    match s.nextEvent with
    | .tick => true
    | .clock => decide (s.cfg.prescaler ≤ s.prescaleCount + 1) && decide (s.timerTop ≤ s.timerCount)
    | .foreground => false
    | .accept _ => false
    | .respond => false
    | .stopLevelChange _ => false
    | .stepIrq => false
    | .stopIrq => false
    | .reset _ => false

/-- The next step is a run of the handler of `src`. -/
def State.servesNext (s : State) (src : IrqSource) : Bool :=
  s.canTake src &&
    match src with
    | .step => s.nextEvent == .stepIrq
    | .stop => s.nextEvent == .stopIrq

/-- The next step is a transaction of the foreground that is enabled (42_command_sequencer.md R131). -/
def State.transactsNext (s : State) : Bool :=
  !s.halted &&
    match s.nextEvent with
    | .foreground => s.pc != .idle && s.pc != .resp
    | .accept _ => s.reqReady
    | .respond => s.respValid
    | .tick => false
    | .clock => false
    | .stopLevelChange _ => false
    | .stepIrq => false
    | .stopIrq => false
    | .reset _ => false

/-- TP1 (R251) over the next `n` steps: between two consecutive Ticks, of either kind, the step handler runs. `waiting`
says that a Tick is unserved. -/
def noOverrun (waiting : Bool) : Nat → State → Bool
  | 0, _ => true
  | n + 1, s =>
    if s.ticksNext then !waiting && noOverrun true n s.after
    else noOverrun (waiting && !s.servesNext .step) n s.after

/-- Over the next `n` steps, at most one step that `counts` comes between the raising of `src`'s request and the run of
its handler. `seen` says that one has come. -/
def atMostOneWhilePending (src : IrqSource) (counts : State → Bool) (seen : Bool) : Nat → State → Bool
  | 0, _ => true
  | n + 1, s =>
    if s.pending src && !s.servesNext src then
      !(seen && counts s) && atMostOneWhilePending src counts (seen || counts s) n s.after
    else atMostOneWhilePending src counts false n s.after

/-- R213 over the next `n` steps: at most one foreground transaction while a request waits, for both sources. The machine
does not enforce it (log 5). -/
def serviceBound (n : Nat) (s : State) : Bool :=
  atMostOneWhilePending .step State.transactsNext false n s && atMostOneWhilePending .stop State.transactsNext false n s

/-- R251 whole, over the next `n` steps: TP1, the bound of R213, and at most one run of the stop handler between a Tick
and its handler. -/
def timingPremises (n : Nat) (s : State) : Bool :=
  noOverrun s.stepPending n s && serviceBound n s &&
    atMostOneWhilePending .step (fun t => t.servesNext .stop) false n s

/-! ### Endless runs and fairness (R105, R213)

An agenda is a finite list, so a run that never ends is a sequence of states into which the environment puts one event
at a time: `events n` is the event of step `n`, `run n` the state before it. -/

/-- The state that takes event `n` of an endless run. -/
def facing (events : Nat → Event) (run : Nat → State) (n : Nat) : State := { run n with agenda := [events n] }

/-- `run` is the endless run of the schedule `events`: each step answers the next state. -/
def EndlessRun (events : Nat → Event) (run : Nat → State) : Prop :=
  ∀ n : Nat, step (facing events run n) = .next (run (n + 1))

/-- The fairness premise of 40_pulse_generator.md R105: Tick, of either kind, recurs for ever while `halted` is 0. -/
def TicksRecur (events : Nat → Event) (run : Nat → State) : Prop :=
  ∀ n : Nat, ∃ m : Nat, n ≤ m ∧ ((facing events run m).ticksNext = true ∨ (run m).halted = true)

/-- Weak fairness (60_exceptions.md R213): a handler that stays enabled is eventually taken. -/
def HandlerFair (events : Nat → Event) (run : Nat → State) (src : IrqSource) : Prop :=
  ∀ n : Nat, (∀ m : Nat, n ≤ m → (run m).canTake src = true) →
    ∃ m : Nat, n ≤ m ∧ (facing events run m).servesNext src = true

/-- The premises of a claim that something eventually happens in an endless run: ticks recur and both handlers are
served. -/
structure FairRun (events : Nat → Event) (run : Nat → State) : Prop where
  endless : EndlessRun events run
  ticksRecur : TicksRecur events run
  stepFair : HandlerFair events run .step
  stopFair : HandlerFair events run .stop

/-! ### Counting -/

/-- How many pulses a history holds. -/
def pulseCount : List OutputEvent → Nat
  | [] => 0
  | .stepPulse _ :: rest => pulseCount rest + 1
  | .response _ :: rest => pulseCount rest
  | .deviceResetRequest :: rest => pulseCount rest
  | .bootRequest :: rest => pulseCount rest

/-- `n` times (`TICK` then `STEP_IRQ`): the pseudo-command TICKS of 30_encoding.md R88. -/
def ticks : Nat → List Event
  | 0 => []
  | n + 1 => .tick :: .stepIrq :: ticks n

end Sys2Proof.Machine
end

