-- ==== Sys2Proof/Certificates/Slice0/Obligations.lean ====
section
/-! DEFINITION. The statements for the provers. Each is about every state, every parameter set the state may carry
(R7) and every schedule its agenda may list; a premise `validParams` is 00_scope.md R8. -/

open Sys2Proof Sys2Proof.Machine

/-! ### The encoding -/

/-- R71, R76, R80, R81: decoding an encoded well-formed command gives it back, every operand at every value. -/
def Obligations.DecodeOfEncodeIsTheCommand : Prop :=
  ∀ i : Instr, i.wf = true → decode (encode i) = .command i

/-- R72, R77: a packet that decodes to a command is the encoding of that command, which is well formed. -/
def Obligations.EncodeOfDecodedIsThePacket : Prop :=
  ∀ (p : Packet) (i : Instr), decode p = .command i → encode i = p ∧ i.wf = true

/-- R82, R84: the decoder answers UNKNOWN exactly for the 224 unassigned ids, with the id. -/
def Obligations.UnknownIdsAreTheUnassignedOnes : Prop :=
  ∀ (p : Packet) (id : Byte), decode p = .unknown id ↔
    id = p.commandId ∧ ((25 ≤ id.toNat ∧ id.toNat ≤ 199) ∨ (202 ≤ id.toNat ∧ id.toNat ≤ 250) ∨ 252 ≤ id.toNat)

/-- 30_encoding.md R80, R81, written out: the words of one command of each family. In the two
words of eight bits the bits above are zero (the model's convention, log 13). -/
def Obligations.SampleWordsDecodeAsTheTableSays : Prop :=
  decodeTableWord 48 0x00000000C900 = some (.getPos .noApply 0) ∧
    decodeTableWord 48 0xFFFFFFFDC801 = some (.setPosSetpt .apply 0xFFFFFFFD) ∧
    decodeTableWord 48 0xBBAA1770C903 = some (.setVelSetpt .noApply 6000 0xBBAA) ∧
    decodeTableWord 48 0x443322010011 = some (.setStatus (.reserved 0) 1 0x443322) ∧
    decodeTableWord 48 0x00000003C815 = some (.setDioHi .apply 3 0) ∧
    decodeTableWord 8 0xC8 = some (.deviceReset (.reserved 0) 0) ∧
    decodeTableWord 8 0xFB = some (.test (.reserved 0) 0) ∧
    decodeTableWord 48 0x44332211C863 = none

/-! ### A step -/

/-- R131, R133: in phase EXEC the foreground's step is the EXEC of the command the buffer decodes to. -/
def Obligations.StepRunsTheDecodedCommand : Prop :=
  ∀ (s : State) (i : Instr), s.nextEvent = .foreground → s.halted = false → s.pc = .exec →
    decode s.packet = .command i → step s = exec i s.afterNext

/-- R193, R84: the EXEC of an unknown id changes nothing but `pc`, whatever the control byte. -/
def Obligations.UnknownIdIsANoOp : Prop :=
  ∀ (s : State) (id : Byte), s.nextEvent = .foreground → s.halted = false → s.pc = .exec →
    decode s.packet = .unknown id → step s = .next { s.afterNext with pc := .resp }

/-- A table row's word placed by `withFetchWord` is the request the very next step runs, in `s` otherwise unchanged
(the model's own convention, log 13). -/
def Obligations.FetchedWordRunsNext : Prop :=
  ∀ (s : State) (nbits w : Nat) (i : Instr), decodeTableWord nbits w = some i →
    ∃ t, step (s.withFetchWord nbits w) = exec i t ∧ t.packet = Packet.ofTableWord nbits w ∧
      t = { s with pkt := t.pkt, pc := .exec, halted := false }

/-- R201, R138: no step and no command faults or is refused (that a step answers where its event is not enabled is
log 4, that the model has no fault and raises no refusal is log 12). -/
def Obligations.EveryStepAnswersNext : Prop :=
  (∀ s : State, ∃ t, step s = .next t) ∧ ∀ (i : Instr) (s : State), ∃ t, exec i s = .next t

/-! ### The queries -/

/-- R146, R147, R153: the three i32 queries answer their register, or the wrapped difference of one state, and write no
register (the wrap: the spec's decision D12; that a query may be followed by an update: D15). -/
def Obligations.PositionQueriesAnswer : Prop :=
  ∀ (ctl : ControlByte) (payload : Word) (s : State),
    (∃ t, exec (.getPos ctl payload) s = .next t ∧ AnswersI32 s t s.position (nextPhase ctl)) ∧
    (∃ t, exec (.getPosSetpt ctl payload) s = .next t ∧ AnswersI32 s t s.posSetpoint (nextPhase ctl)) ∧
    (∃ t, exec (.getPosErr ctl payload) s = .next t ∧ AnswersI32 s t (s.posSetpoint - s.position) (nextPhase ctl))

/-- R148, R149, R152: the three u16 queries of registers (that a query may be followed by an update: the spec's decision
D15). -/
def Obligations.VelocityQueriesAnswer : Prop :=
  ∀ (ctl : ControlByte) (payload : Word) (s : State),
    (∃ t, exec (.getVelSetpt ctl payload) s = .next t ∧ AnswersU16 s t s.velSetpoint (nextPhase ctl)) ∧
    (∃ t, exec (.getVel ctl payload) s = .next t ∧ AnswersU16 s t s.velocity (nextPhase ctl)) ∧
    (∃ t, exec (.getPosVel ctl payload) s = .next t ∧ AnswersU16 s t s.travelVelocity (nextPhase ctl))

/-- R150, R151, R156 to R159: the six queries of enum registers answer the code of the register's value (R15; that a
query may be followed by an update: the spec's decision D15). -/
def Obligations.EnumQueriesAnswer : Prop :=
  ∀ (ctl : ControlByte) (payload : Word) (s : State),
    (∃ t, exec (.getDirSetpt ctl payload) s = .next t ∧ AnswersU8 s t
      (if s.dirSetpoint = .positive then s.cfg.enc.directionPositive else s.cfg.enc.directionNegative) (nextPhase ctl)) ∧
    (∃ t, exec (.getMode ctl payload) s = .next t ∧ AnswersU8 s t
      (if s.mode = .velocity then s.cfg.enc.modeVelocity else s.cfg.enc.modePosition) (nextPhase ctl)) ∧
    (∃ t, exec (.getStatus ctl payload) s = .next t ∧ AnswersU8 s t
      (if s.runStatus = .stopped then s.cfg.enc.runStopped else s.cfg.enc.runRunning) (nextPhase ctl)) ∧
    (∃ t, exec (.getDir ctl payload) s = .next t ∧ AnswersU8 s t
      (if s.direction = .positive then s.cfg.enc.directionPositive else s.cfg.enc.directionNegative) (nextPhase ctl)) ∧
    (∃ t, exec (.getEnable ctl payload) s = .next t ∧ AnswersU8 s t
      (if s.enable = .enabled then s.cfg.enc.enableEnabled else s.cfg.enc.enableDisabled) (nextPhase ctl)) ∧
    (∃ t, exec (.getExtInt ctl payload) s = .next t ∧ AnswersU8 s t
      (if s.stopInterlockEnabled = .enabled then s.cfg.enc.interlockEnabled else s.cfg.enc.interlockDisabled)
      (nextPhase ctl))

/-- R154, R155 with the formulas of R98, R99: the two limits are answered whole, as u16 (the formulas are the
spec's decision D10). -/
def Obligations.LimitQueriesAnswer : Prop :=
  ∀ (ctl : ControlByte) (payload : Word) (s : State), validParams s.cfg = true →
    (∃ (v : Half) (t : State), v.toNat = s.cfg.clockFrequency / (s.cfg.prescaler * (s.cfg.timerTopMin + 1)) ∧
      exec (.getMaxVel ctl payload) s = .next t ∧ AnswersU16 s t v (nextPhase ctl)) ∧
    (∃ (v : Half) (t : State),
      v.toNat = (s.cfg.clockFrequency + s.cfg.prescaler * (s.cfg.timerTopMax + 1) - 1) /
        (s.cfg.prescaler * (s.cfg.timerTopMax + 1)) ∧
      exec (.getMinVel ctl payload) s = .next t ∧ AnswersU16 s t v (nextPhase ctl))

/-! ### The setters -/

/-- R166: every i32 is stored as sent and echoed. -/
def Obligations.SetPosSetptStoresAnyValue : Prop :=
  ∀ (ctl : ControlByte) (x : Word) (s : State), ∃ t, exec (.setPosSetpt ctl x) s = .next t ∧
    AnswersI32 { s with posSetpoint := x } t x (nextPhase ctl)

/-- R167, R170, R175: the two velocity setters store and echo min(v, maxVelocity()). -/
def Obligations.VelocitySettersClamp : Prop :=
  ∀ (ctl : ControlByte) (x rest : Half) (s : State), ∃ v : Half, v.toNat = min x.toNat (maxVelocity s.cfg) ∧
    (∃ t, exec (.setVelSetpt ctl x rest) s = .next t ∧ AnswersU16 { s with velSetpoint := v } t v (nextPhase ctl)) ∧
    (∃ t, exec (.setPosVel ctl x rest) s = .next t ∧ AnswersU16 { s with travelVelocity := v } t v (nextPhase ctl))

/-- R171: position and setpoint shift together by -payload, each wrapping; the new position is echoed and the position
error is the same before and after (wrap and echo: the spec's decisions D12, D18). -/
def Obligations.SetZeroPosShiftsBoth : Prop :=
  ∀ (ctl : ControlByte) (x : Word) (s : State), ∃ t, exec (.setZeroPos ctl x) s = .next t ∧
    AnswersI32 { s with position := s.position - x, posSetpoint := s.posSetpoint - x } t (s.position - x) (nextPhase ctl) ∧
    t.posSetpoint - t.position = s.posSetpoint - s.position

/-- R168, R169, R173: the three plain enum setters store one of the enum's two values or leave the register, and echo the
register; SET_ENABLE drives its line at once (the spec's decisions D19, D20). -/
def Obligations.EnumSettersStoreOrIgnore : Prop :=
  ∀ (ctl : ControlByte) (b : Byte) (rest : BitVec 24) (s : State),
    (∃ d t, d = (if b = s.cfg.enc.directionPositive then Direction.positive
        else if b = s.cfg.enc.directionNegative then Direction.negative else s.dirSetpoint) ∧
      exec (.setDirSetpt ctl b rest) s = .next t ∧ AnswersU8 { s with dirSetpoint := d } t
        (if d = .positive then s.cfg.enc.directionPositive else s.cfg.enc.directionNegative) (nextPhase ctl)) ∧
    (∃ m t, m = (if b = s.cfg.enc.modeVelocity then Mode.velocity
        else if b = s.cfg.enc.modePosition then Mode.position else s.mode) ∧
      exec (.setMode ctl b rest) s = .next t ∧ AnswersU8 { s with mode := m } t
        (if m = .velocity then s.cfg.enc.modeVelocity else s.cfg.enc.modePosition) (nextPhase ctl)) ∧
    (∃ e t, e = (if b = s.cfg.enc.enableEnabled then Switch.enabled
        else if b = s.cfg.enc.enableDisabled then Switch.disabled else s.enable) ∧
      exec (.setEnable ctl b rest) s = .next t ∧ (t.drvEnableOut = true ↔ e = .enabled) ∧
      AnswersU8 { s with enable := e } t
        (if e = .enabled then s.cfg.enc.enableEnabled else s.cfg.enc.enableDisabled) (nextPhase ctl))

/-- R172: STOPPED is always stored, RUNNING unless the interlock is enabled and the stop condition asserted, and the
register is echoed (one transaction: the spec's decision D26). -/
def Obligations.SetStatusRefusesRunningWhileInterlocked : Prop :=
  ∀ (ctl : ControlByte) (b : Byte) (rest : BitVec 24) (s : State), ∃ r t,
    r = (if b = s.cfg.enc.runStopped then RunStatus.stopped
      else if b = s.cfg.enc.runRunning then
        (if s.stopInterlockEnabled = .enabled ∧ s.stopLevel = s.cfg.stopActiveLevel then s.runStatus
          else RunStatus.running)
      else s.runStatus) ∧
    exec (.setStatus ctl b rest) s = .next t ∧ AnswersU8 { s with runStatus := r } t
      (if r = .stopped then s.cfg.enc.runStopped else s.cfg.enc.runRunning) (nextPhase ctl)

/-- R174: DISABLED is always stored and drops a pending stop request; ENABLED is stored unless the stop condition is
asserted and leaves the request; the register is echoed (the clearing: the spec's decision D24). -/
def Obligations.SetExtIntRefusesEnableWhileAsserted : Prop :=
  ∀ (ctl : ControlByte) (b : Byte) (rest : BitVec 24) (s : State), ∃ e p t,
    e = (if b = s.cfg.enc.interlockDisabled then Switch.disabled
      else if b = s.cfg.enc.interlockEnabled then
        (if s.stopLevel = s.cfg.stopActiveLevel then s.stopInterlockEnabled else Switch.enabled)
      else s.stopInterlockEnabled) ∧
    p = (if b = s.cfg.enc.interlockDisabled then false else s.stopPending) ∧
    exec (.setExtInt ctl b rest) s = .next t ∧
    AnswersU8 { s with stopInterlockEnabled := e, stopPending := p } t
      (if e = .enabled then s.cfg.enc.interlockEnabled else s.cfg.enc.interlockDisabled) (nextPhase ctl)

/-! ### Outputs, restart commands, TEST -/

/-- R186, R187, R188: the indexed output is driven, the other seven keep their values, an index of 8 or more drives none;
the index is echoed (the spec's decisions D18, D21). -/
def Obligations.OutputCommandsDriveOneOutput : Prop :=
  ∀ (ctl : ControlByte) (i : Byte) (rest : BitVec 24) (s : State),
    (∃ d t, (∀ k : Nat, k < 8 → d.getLsbD k = if i.toNat = k then true else s.dio.getLsbD k) ∧
      exec (.setDioHi ctl i rest) s = .next t ∧ AnswersU8 { s with dio := d } t i (nextPhase ctl)) ∧
    (∃ d t, (∀ k : Nat, k < 8 → d.getLsbD k = if i.toNat = k then false else s.dio.getLsbD k) ∧
      exec (.setDioLo ctl i rest) s = .next t ∧ AnswersU8 { s with dio := d } t i (nextPhase ctl))

/-- R190, R191, the EXEC of the two restart commands: nothing but `pc` is written, whatever the control byte (the
response is the request: the spec's decision D18; no update: D15). -/
def Obligations.RestartCommandsOnlyAdvance : Prop :=
  ∀ (ctl : ControlByte) (payload : Word) (s : State),
    exec (.deviceReset ctl payload) s = .next { s with pc := .resp } ∧
    exec (.bootloaderMode ctl payload) s = .next { s with pc := .resp }

/-- R192: TEST answers the parameters' constant with its tag, whatever the request and the registers. -/
def Obligations.TestAnswersTheConstant : Prop :=
  ∀ (ctl : ControlByte) (payload : Word) (s : State), ∃ t, exec (.test ctl payload) s = .next t ∧
    AnswersTest s t (nextPhase ctl)

/-! ### Rules over all commands -/

/-- R134, R74, R83: an update follows exactly when the control byte is 200 and the command is no restart command
(queries included: the spec's decision D15). -/
def Obligations.ApplyDecision : Prop :=
  ∀ (i : Instr) (s t : State), i.wf = true → exec i s = .next t →
    t.pc = if i.ctl.toByte = 200#8 ∧ i.isRestart = false then Phase.snap else Phase.resp

/-- R51: every command but SET_ZERO_POS, repeated with no other step between, leaves the same registers. -/
def Obligations.RepeatedCommandChangesNothing : Prop :=
  ∀ (i : Instr) (s t u : State), (∀ ctl x, i ≠ .setZeroPos ctl x) → exec i s = .next t → exec i t = .next u →
    OnlyAnswerDiffers t u

/-! ### The sequencer -/

/-- R132: ACCEPT copies the six bytes and goes to EXEC; while `pc` is not IDLE the request is not taken
(the event is then spent: the model's convention, log 19). -/
def Obligations.AcceptCopiesTheRequest : Prop :=
  ∀ (s : State) (p : Packet), s.nextEvent = .accept p → s.halted = false →
    (s.pc = .idle → ∃ t, step s = .next t ∧ t = { s.afterNext with pkt := t.pkt, pc := .exec } ∧ t.packet = p ∧
      ∀ a : Nat, 6 ≤ a → Memory.read t.pkt a = Memory.read s.pkt a) ∧
    (s.pc ≠ .idle → step s = .next s.afterNext)

/-- R137: RESP emits one Response of the six bytes and goes to IDLE, or to the restart action after ids 200 and 201. -/
def Obligations.RespHandsOverTheResponse : Prop :=
  ∀ s : State, s.nextEvent = .respond → s.halted = false → s.pc = .resp →
    step s = .next { s.afterNext with
      history := s.history ++ [.response s.packet]
      pc := if s.pktByte 0 = 200#8 then .resetAct else if s.pktByte 0 = 201#8 then .bootAct else .idle }

/-- R138, R137: an accepted request is answered after at most three foreground transactions, with one Response that echoes
its id. -/
def Obligations.RequestsAreAnsweredInBoundedSteps : Prop :=
  ∀ (s : State) (p : Packet), s.pc = .idle → s.halted = false → ∃ n : Nat, n ≤ 3 ∧ ∀ more : List Event, ∃ t q,
    core.run (n + 2) { s with agenda := .accept p :: (List.replicate n .foreground ++ .respond :: more) } = .next t ∧
      t.agenda = more ∧ t.history = s.history ++ [.response q] ∧ q.commandId = p.commandId ∧
      (t.pc = .idle ∨ t.pc = .resetAct ∨ t.pc = .bootAct)

/-! ### The mode updates -/

/-- R118, R123: the snapshot of `positionModeUpdate` writes the latches and `pc`, nothing else (`updMode` as log 16 reads
R33; the wrap: the spec's decision D12). -/
def Obligations.PositionSnapshotComputesTargets : Prop :=
  ∀ s : State, RunsPhase s .snap → s.mode = .position →
    step s = .next { s.afterNext with
      pc := .apply
      latches :=
        { tgtDirection := if 0 < (s.posSetpoint - s.position).toInt then .positive else .negative
          tgtVelocity := if s.posSetpoint ≠ s.position ∧ s.runStatus = .running ∧
              minVelocity s.cfg ≤ s.travelVelocity.toNat then s.travelVelocity else 0
          tgtOutput := decide (s.posSetpoint ≠ s.position ∧ s.runStatus = .running ∧
              minVelocity s.cfg ≤ s.travelVelocity.toNat)
          tgtTrigger := .keep
          updMode := .position } }

/-- R119: the snapshot of `velocityModeUpdate` writes the latches and `pc`, nothing else (`updMode` as log 16 reads R33). -/
def Obligations.VelocitySnapshotComputesTargets : Prop :=
  ∀ s : State, RunsPhase s .snap → s.mode = .velocity →
    step s = .next { s.afterNext with
      pc := .apply
      latches :=
        { tgtDirection := s.dirSetpoint
          tgtVelocity := if s.runStatus = .running ∧ minVelocity s.cfg ≤ s.velSetpoint.toNat then s.velSetpoint else 0
          tgtOutput := decide (s.runStatus = .running ∧ minVelocity s.cfg ≤ s.velSetpoint.toNat)
          tgtTrigger := .drive (decide (s.runStatus = .running ∧ minVelocity s.cfg ≤ s.velSetpoint.toNat))
          updMode := .velocity } }

/-- R121: the apply writes the latches' values, stale or not, and `timerTop` only for a velocity that is not 0
(one transaction with the gate: the spec's decision D14). -/
def Obligations.ApplyWritesTheLatches : Prop :=
  ∀ s : State, RunsPhase s .apply →
    step s = .next { s.afterNext with
      pc := .resp
      direction := s.latches.tgtDirection
      velocity := s.latches.tgtVelocity
      timerTop := if 0 < s.latches.tgtVelocity.toNat then configurePulseRate s.cfg s.latches.tgtVelocity.toNat
        else s.timerTop
      outputEnabled := s.latches.tgtOutput
      trigger := if s.latches.tgtTrigger = .keep then s.trigger else decide (s.latches.tgtTrigger = .drive true) }

/-- R125: after an update with nothing between its two transactions, STOPPED means idle, in VELOCITY mode the trigger is
the gate, and in POSITION mode a moving motor is not at its setpoint. -/
def Obligations.UpdateGuarantees : Prop :=
  ∀ (s : State) (rest : List Event), s.pc = .snap → s.halted = false →
    s.agenda = .foreground :: .foreground :: rest → ∃ t, core.run 2 s = .next t ∧
      (t.runStatus = .stopped → t.velocity = 0 ∧ t.outputEnabled = false) ∧
      (t.mode = .velocity → t.trigger = t.outputEnabled) ∧
      (t.mode = .position → 0 < t.velocity.toNat → t.position ≠ t.posSetpoint)

/-- R125, first sentence: an update run twice leaves the state of the first. -/
def Obligations.UpdateTwiceIsUpdateOnce : Prop :=
  ∀ s : State, inlineUpdate (inlineUpdate s) = inlineUpdate s

/-! ### The divider and the generator -/

/-- R97: `timerTop` is the clamp of q - 1, where q is clockFrequency / (prescaler * v) to the nearest integer, a half
rounded up (the spec's decision D9). -/
def Obligations.DividerRoundsHalfUpAndClamps : Prop :=
  ∀ (p : Params) (v : Nat), 0 < p.prescaler → 0 < v → ∃ q : Nat,
    2 * q * (p.prescaler * v) ≤ 2 * p.clockFrequency + p.prescaler * v ∧
    2 * p.clockFrequency + p.prescaler * v < 2 * (q + 1) * (p.prescaler * v) ∧
    (configurePulseRate p v : Int) = max (p.timerTopMin : Int) (min (p.timerTopMax : Int) ((q : Int) - 1))

/-- R103: for every accepted velocity the divider's result lies in its range with the clamp inactive. -/
def Obligations.AcceptedVelocitiesNeedNoClamp : Prop :=
  ∀ (p : Params) (v : Nat), validParams p = true → minVelocity p ≤ v → v ≤ maxVelocity p →
    (p.timerTopMin : Int) ≤ unclampedTop p v ∧ unclampedTop p v ≤ (p.timerTopMax : Int) ∧
      (configurePulseRate p v : Int) = unclampedTop p v

/-- R107: a larger velocity never gives a larger `timerTop`. -/
def Obligations.DividerIsNonIncreasing : Prop :=
  ∀ (p : Params) (v w : Nat), 0 < p.prescaler → 0 < v → v ≤ w → configurePulseRate p w ≤ configurePulseRate p v

/-- R98, R99: maxVelocity() is the greatest v with clockFrequency / (prescaler * v) at least timerTopMin + 1, minVelocity()
the least with it at most timerTopMax + 1 (the spec's decision D10). -/
def Obligations.LimitsAreTheEndsOfTheRange : Prop :=
  ∀ (p : Params) (v : Nat), 0 < p.prescaler →
    (v ≤ maxVelocity p ↔ v * (p.prescaler * (p.timerTopMin + 1)) ≤ p.clockFrequency) ∧
    (minVelocity p ≤ v ↔ p.clockFrequency ≤ v * (p.prescaler * (p.timerTopMax + 1)))

/-- R104: a tick emits a pulse in the direction register's direction while the gate is open and raises the request,
whatever the run status, the velocity and IE (the spec's decision D29). -/
def Obligations.TickPulsesAndRaisesTheRequest : Prop :=
  ∀ s : State, s.nextEvent = .tick → s.halted = false →
    step s = .next { s.afterNext with
      stepPending := true
      history := if s.outputEnabled = true then s.history ++ [.stepPulse s.direction] else s.history }

/-- R256: with `timerTop` constant the timer ticks once every prescaler * (timerTop + 1) cycles of `clk`, at the last of
them. The counters start from 0 (the prescale counter's phase is the model's, log 10). -/
def Obligations.TimerPeriodInClockCycles : Prop :=
  ∀ (s : State) (rest : List Event), s.halted = false → 0 < s.cfg.prescaler → s.timerCount = 0 → s.prescaleCount = 0 →
    s.agenda = List.replicate (s.cfg.prescaler * (s.timerTop + 1)) .clock ++ rest →
    (∀ k : Nat, k < s.cfg.prescaler * (s.timerTop + 1) → ∃ u, core.run k s = .next u ∧ u.history = s.history ∧
      u.stepPending = s.stepPending) ∧
    core.run (s.cfg.prescaler * (s.timerTop + 1)) s = .next { s with
      agenda := rest
      stepPending := true
      history := if s.outputEnabled = true then s.history ++ [.stepPulse s.direction] else s.history }

/-- R256, R257: a clock cycle that is not the prescaler's last only counts; at a prescaled cycle the timer ticks and
clears where its count is at or above `timerTop`, however `timerTop` came to be that low, and else counts on (the spec's decision D28;
the prescale counter's form is the model's, log 10). -/
def Obligations.TimerTicksAtOrAboveTheTop : Prop :=
  ∀ s : State, s.nextEvent = .clock → s.halted = false → step s = .next (
    if s.prescaleCount + 1 < s.cfg.prescaler then { s.afterNext with prescaleCount := s.prescaleCount + 1 }
    else if s.timerCount < s.timerTop then { s.afterNext with prescaleCount := 0, timerCount := s.timerCount + 1 }
    else { s.afterNext with
      prescaleCount := 0
      timerCount := 0
      stepPending := true
      history := if s.outputEnabled = true then s.history ++ [.stepPulse s.direction] else s.history })

/-! ### The interrupts -/

/-- R207: the step handler counts by one, wrapping, exactly when RUNNING with a velocity above 0, and in POSITION mode on
arrival closes the gate and clears the velocity; nothing else changes (the spec's decisions D12, D13). -/
def Obligations.StepHandlerCountsAndStopsOnArrival : Prop :=
  ∀ s : State, RunsStepHandler s →
    step s = .next (
      let p := if s.direction = .positive then s.position + 1 else s.position - 1
      if s.runStatus = .running ∧ 0 < s.velocity.toNat then
        if s.mode = .position ∧ p = s.posSetpoint then
          { s.afterNext with stepPending := false, position := p, outputEnabled := false, velocity := 0 }
        else { s.afterNext with stepPending := false, position := p }
      else { s.afterNext with stepPending := false })

/-- R210: what the stop handler leaves, in each mode and under a disabled interlock; nothing else changes
(the level is not tested again: the spec's decision D40). -/
def Obligations.StopHandlerForcesStopped : Prop :=
  ∀ s : State, RunsStopHandler s →
    step s = .next (
      if s.stopInterlockEnabled = .enabled then
        if s.mode = .position then
          { s.afterNext with
            stopPending := false, runStatus := .stopped, posSetpoint := s.position, direction := .negative
            velocity := 0, outputEnabled := false }
        else
          { s.afterNext with
            stopPending := false, runStatus := .stopped, velSetpoint := 0, direction := s.dirSetpoint
            velocity := 0, outputEnabled := false, trigger := false }
      else { s.afterNext with stopPending := false })

/-- R211: the stop handler run again changes nothing. -/
def Obligations.StopHandlerIsIdempotent : Prop :=
  ∀ s : State, stopHandler (stopHandler s) = stopHandler s

/-- R204: a handler whose request is not pending, or that is masked or halted, is not entered (one enable bit: the
spec's decision D22; its event is then spent, log 4). -/
def Obligations.MaskedHandlersAreNotEntered : Prop :=
  ∀ s : State,
    (s.nextEvent = .stepIrq → s.ie = false ∨ s.stepPending = false ∨ s.halted = true → step s = .next s.afterNext) ∧
    (s.nextEvent = .stopIrq → s.ie = false ∨ s.stopPending = false ∨ s.halted = true → step s = .next s.afterNext)

/-- R209: the level follows the input, and its asserting edge raises the request exactly under an enabled interlock
(the spec's decision D24). -/
def Obligations.AssertingEdgeRaisesTheStopRequest : Prop :=
  ∀ (s : State) (level : Bool), s.nextEvent = .stopLevelChange level → s.halted = false →
    step s = .next { s.afterNext with
      stopLevel := level
      stopPending := if s.stopLevel ≠ s.cfg.stopActiveLevel ∧ level = s.cfg.stopActiveLevel ∧
        s.stopInterlockEnabled = .enabled then true else s.stopPending }

/-- R212: with both requests pending either handler may be first, and the orders differ by one count (the spec's
decision D23). -/
def Obligations.HandlerOrdersDifferByOneCount : Prop :=
  ∀ (s : State) (rest : List Event), s.mode = .velocity → s.runStatus = .running → 0 < s.velocity.toNat →
    s.stopInterlockEnabled = .enabled → s.ie = true → s.halted = false → s.stepPending = true → s.stopPending = true →
    (∃ t, core.run 2 { s with agenda := .stopIrq :: .stepIrq :: rest } = .next t ∧ t.position = s.position ∧
      t.runStatus = .stopped ∧ t.stepPending = false ∧ t.stopPending = false) ∧
    (∃ t, core.run 2 { s with agenda := .stepIrq :: .stopIrq :: rest } = .next t ∧
      t.position = (if s.direction = .positive then s.position + 1 else s.position - 1) ∧
      t.runStatus = .stopped ∧ t.stepPending = false ∧ t.stopPending = false)

/-! ### Reset and halt -/

/-- R39: the registers of the reset state, for the values the spec gives (its decision D8). The prescale counter's 0 is the
model's (log 10). -/
def Obligations.ResetStateHasTheTablesValues : Prop :=
  HoldsResetValues
    { mode := .velocity, direction := .positive, velocity := 0, position := 0, posSetpoint := 0, travelVelocity := 0
      velSetpoint := 0, dirSetpoint := .positive, runStatus := .stopped, enable := .disabled
      stopInterlockEnabled := .disabled, timerTop := State.reset.cfg.timerTopMax, outputEnabled := false, trigger := false
      dio := 0, pc := .idle, halted := false, ie := true, stepPending := false, stopPending := false, timerCount := 0
      prescaleCount := 0 } State.reset ∧
    State.reset.halted = false ∧ State.reset.history = []

/-- R241, R242: Reset, from any state, halted or not, gives every register its reset value RESET_* (whatever the
parameters name; the table's values are the spec's decision D8, log 15; the prescale counter's is log 10), takes the
input's level and keeps the history; RESET_pc being IDLE, a command in flight is dropped. That the parameters and the
agenda stay is the model's own (logs 1, 3, 20). -/
def Obligations.ResetRestoresTheTablesValues : Prop :=
  ∀ (s : State) (level : Bool), s.nextEvent = .reset level → ∃ t, step s = .next t ∧ HoldsResetValues s.cfg.resets t ∧
    t.halted = s.cfg.resets.halted ∧ t.stopLevel = level ∧ t.history = s.history ∧ t.cfg = s.cfg ∧ t.agenda = s.agenda.tail

/-- R190, R191: the restart actions emit their request, reset every register to its RESET_*, and after BOOTLOADER_MODE halt
the block (the spec's decisions D8, D30; log 15; the parameters and the agenda stay: logs 1, 3, 20). -/
def Obligations.RestartActionsEmitAndReset : Prop :=
  ∀ s : State,
    (RunsPhase s .resetAct → ∃ t, step s = .next t ∧ HoldsResetValues s.cfg.resets t ∧ t.halted = s.cfg.resets.halted ∧
      t.history = s.history ++ [.deviceResetRequest] ∧ t.cfg = s.cfg ∧ t.agenda = s.agenda.tail) ∧
    (RunsPhase s .bootAct → ∃ t, step s = .next t ∧ HoldsResetValues s.cfg.resets t ∧ t.halted = true ∧
      t.history = s.history ++ [.bootRequest] ∧ t.cfg = s.cfg ∧ t.agenda = s.agenda.tail)

/-- R38: while the block is halted no event but a Reset changes anything (the spec's decision D30). -/
def Obligations.HaltedBlockIsFrozen : Prop :=
  ∀ s : State, s.halted = true → (∀ level, s.nextEvent ≠ .reset level) → step s = .next s.afterNext

/-! ### Invariants and rules of the whole machine -/

/-- R40: the reset state meets the invariants (with the parameters log 1 names). -/
def Obligations.ResetStateMeetsTheInvariants : Prop := BlockInv State.reset

/-- R40: every transaction of every agent and every event keeps the invariants (with the model's own strengthening:
latches, counters, buffer). -/
def Obligations.EveryStepKeepsTheInvariants : Prop :=
  ∀ s t : State, BlockInv s → step s = .next t → BlockInv t

/-- R216: once the interlock is enabled and the stop condition asserted, no step but a Reset changes `runStatus` away from
STOPPED, and a Reset writes the reset value (STOPPED in R39's table, the spec's decision D8; log 15). -/
def Obligations.InterlockKeepsStopped : Prop :=
  ∀ s t : State, s.stopInterlockEnabled = .enabled → s.stopLevel = s.cfg.stopActiveLevel → s.runStatus = .stopped →
    step s = .next t → (¬ Resets s → t.runStatus = .stopped) ∧ (Resets s → t.runStatus = s.cfg.resets.runStatus)

/-- R41: a step that is no Reset changes a register only by one of the writers the table names. That a tick leaves the two
counters to the clock event is the model's (log 10). -/
def Obligations.OnlyTheTablesWritersWrite : Prop :=
  ∀ s t : State, step s = .next t → ¬ Resets s → WritersRespected s t

/-- R36, R241, R43: no step erases the output history or changes the parameters (which ride in State: log 1). -/
def Obligations.HistoryIsOnlyExtended : Prop :=
  ∀ s t : State, step s = .next t → (∃ new, t.history = s.history ++ new) ∧ t.cfg = s.cfg

/-- R217: no overshoot. Moving POSITIVE in POSITION mode with only ticks and their handlers, the count rises by one each
time and the motor stops after exactly `setpoint - position` runs, with one pulse for each; the mirror statement for
NEGATIVE. -/
def Obligations.PositionMoveStopsExactlyOnArrival : Prop :=
  ∀ (s : State) (n : Nat) (rest : List Event), s.mode = .position → s.runStatus = .running → 0 < s.velocity.toNat →
    s.outputEnabled = true → s.ie = true → s.halted = false → 0 < n → s.agenda = ticks n ++ rest →
    (s.direction = .positive → n ≤ (s.posSetpoint - s.position).toNat → ∃ t, core.run (2 * n) s = .next t ∧
      t.position = s.position + BitVec.ofNat 32 n ∧
      t.history = s.history ++ List.replicate n (.stepPulse .positive) ∧ t.runStatus = .running ∧ t.agenda = rest ∧
      (if n = (s.posSetpoint - s.position).toNat
        then t.position = t.posSetpoint ∧ t.velocity = 0 ∧ t.outputEnabled = false
        else t.velocity = s.velocity ∧ t.outputEnabled = true)) ∧
    (s.direction = .negative → n ≤ (s.position - s.posSetpoint).toNat → ∃ t, core.run (2 * n) s = .next t ∧
      t.position = s.position - BitVec.ofNat 32 n ∧
      t.history = s.history ++ List.replicate n (.stepPulse .negative) ∧ t.runStatus = .running ∧ t.agenda = rest ∧
      (if n = (s.position - s.posSetpoint).toNat
        then t.position = t.posSetpoint ∧ t.velocity = 0 ∧ t.outputEnabled = false
        else t.velocity = s.velocity ∧ t.outputEnabled = true))

/-- R251: under the premise that no tick overruns another, a motor in VELOCITY mode counts exactly the pulses it emits,
whether its ticks are the event of R104 or made by the clock (R256; the prescale counter's form is the model's, log 10). -/
def Obligations.CountsEqualPulsesWithoutOverrun : Prop :=
  ∀ (s : State) (events rest : List Event), s.mode = .velocity → s.runStatus = .running → 0 < s.velocity.toNat →
    s.outputEnabled = true → s.ie = true → s.halted = false → s.stepPending = false →
    (∀ e ∈ events, e = .tick ∨ e = .clock ∨ e = .stepIrq) → s.agenda = events ++ rest →
    noOverrun false events.length s = true →
    ∃ t, core.run events.length s = .next t ∧ (t.stepPending = false →
      t.position + BitVec.ofNat 32 (if s.direction = .negative then pulseCount t.history else pulseCount s.history) =
        s.position + BitVec.ofNat 32 (if s.direction = .negative then pulseCount s.history else pulseCount t.history))

/-! ### Hazards: runs the model admits -/

/-- R246: an arrival between SNAP and APPLY is undone by the stale apply, which starts the motor at its setpoint. -/
def Obligations.StaleApplyAfterArrival : Prop :=
  ∀ (s : State) (rest : List Event), validParams s.cfg = true → s.mode = .position → s.runStatus = .running →
    s.direction = .positive → s.posSetpoint = s.position + 1 → 0 < s.velocity.toNat →
    minVelocity s.cfg ≤ s.travelVelocity.toNat → s.ie = true → s.halted = false → s.pc = .snap →
    s.agenda = .foreground :: .tick :: .stepIrq :: .foreground :: rest →
    (∃ u, core.run 3 s = .next u ∧ u.position = u.posSetpoint ∧ u.velocity = 0 ∧ u.outputEnabled = false) ∧
    (∃ t, core.run 4 s = .next t ∧ t.position = t.posSetpoint ∧ 0 < t.velocity.toNat ∧ t.outputEnabled = true)

/-- R247: a stop between SNAP and APPLY is undone by the stale apply, which opens the gate while STOPPED and asserted. -/
def Obligations.StaleApplyAfterStop : Prop :=
  ∀ (s : State) (rest : List Event), validParams s.cfg = true → s.mode = .velocity → s.runStatus = .running →
    minVelocity s.cfg ≤ s.velSetpoint.toNat → s.stopInterlockEnabled = .enabled → s.stopLevel ≠ s.cfg.stopActiveLevel →
    s.ie = true → s.halted = false → s.pc = .snap →
    s.agenda = .foreground :: .stopLevelChange s.cfg.stopActiveLevel :: .stopIrq :: .foreground :: rest →
    (∃ u, core.run 3 s = .next u ∧ u.runStatus = .stopped ∧ u.velocity = 0 ∧ u.outputEnabled = false) ∧
    (∃ t, core.run 4 s = .next t ∧ t.runStatus = .stopped ∧ 0 < t.velocity.toNat ∧ t.outputEnabled = true)

/-- R248: STOPPED written without apply leaves the pulses running and stops the count. -/
def Obligations.StoppedWithoutApplyKeepsPulsing : Prop :=
  ∀ (s : State) (rest : List Event) (b : Byte) (r : BitVec 24), s.pc = .exec → s.halted = false → s.ie = true →
    decode s.packet = .command (.setStatus .noApply b r) → b = s.cfg.enc.runStopped → s.outputEnabled = true →
    s.agenda = .foreground :: .tick :: .stepIrq :: rest → ∃ t, core.run 3 s = .next t ∧ t.runStatus = .stopped ∧
      t.velocity = s.velocity ∧ t.outputEnabled = true ∧ t.position = s.position ∧
      t.history = s.history ++ [.stepPulse s.direction]

/-- R249: an apply between a tick and its handler: the pulse went out in the old direction, and the handler counts in the
new one, or not at all where the new velocity is 0. -/
def Obligations.ApplyBetweenTickAndHandlerMiscounts : Prop :=
  ∀ (s : State) (rest : List Event), s.mode = .velocity → s.runStatus = .running → s.outputEnabled = true →
    s.ie = true → s.halted = false → s.pc = .apply → s.agenda = .tick :: .foreground :: .stepIrq :: rest →
    ∃ t, core.run 3 s = .next t ∧ t.history = s.history ++ [.stepPulse s.direction] ∧ t.stepPending = false ∧
      t.position = if s.latches.tgtVelocity = 0 then s.position
        else if s.latches.tgtDirection = .positive then s.position + 1 else s.position - 1

/-- R250: two ticks before the handler merge into one count (the spec's decision D35). -/
def Obligations.OverrunLosesACount : Prop :=
  ∀ (s : State) (rest : List Event), s.mode = .velocity → s.runStatus = .running → 0 < s.velocity.toNat →
    s.outputEnabled = true → s.ie = true → s.halted = false → s.agenda = .tick :: .tick :: .stepIrq :: rest →
    ∃ t, core.run 3 s = .next t ∧ t.stepPending = false ∧
      t.history = s.history ++ [.stepPulse s.direction, .stepPulse s.direction] ∧
      t.position = if s.direction = .positive then s.position + 1 else s.position - 1
end

