-- ==== Sys2Proof/Laws/Memory.lean ====
section
/-! SUPPORT. The laws of the packet buffer: what a read gives after a write, and that every write keeps the canonical
form, in which equal contents are equal data. -/

namespace Sys2Proof.Machine

@[simp] theorem Memory.read_nil (k : Nat) : Memory.read [] k = none := rfl

theorem Memory.read_cons (a : Nat) (v : Byte) (rest : Memory) (k : Nat) :
    Memory.read ((a, v) :: rest) k = if a = k then some v else Memory.read rest k := rfl

/-- A read after a write, decided by the two offsets. -/
@[simp] theorem Memory.read_write (m : Memory) (k j : Nat) (v : Byte) :
    Memory.read (Memory.write m k v) j = if j = k then some v else Memory.read m j := by
  induction m with
  | nil => simp [Memory.write, Memory.read_cons, eq_comm]
  | cons c rest ih =>
    obtain ⟨a, w⟩ := c
    simp only [Memory.write]
    by_cases hj : j = k
    · subst hj
      split
      · next h => rw [Memory.read_cons, if_neg (by omega), ih, if_pos rfl, if_pos rfl]
      · split <;> simp [Memory.read_cons]
    · rw [if_neg hj]
      split
      · rw [Memory.read_cons, Memory.read_cons, ih, if_neg hj]
      · split
        · next h => rw [Memory.read_cons, Memory.read_cons, if_neg (Ne.symm hj), if_neg (by omega)]
        · rw [Memory.read_cons, if_neg (Ne.symm hj)]

theorem Memory.wfFrom_cons (lo a : Nat) (v : Byte) (rest : Memory) :
    Memory.wfFrom lo ((a, v) :: rest) = true ↔ lo ≤ a ∧ a < 6 ∧ Memory.wfFrom (a + 1) rest = true := by
  simp [Memory.wfFrom, and_assoc]

theorem Memory.wfFrom_mono {m : Memory} {lo lo' : Nat} (h : Memory.wfFrom lo m = true) (hle : lo' ≤ lo) :
    Memory.wfFrom lo' m = true := by
  cases m with
  | nil => rfl
  | cons c rest =>
    obtain ⟨a, v⟩ := c
    rw [Memory.wfFrom_cons] at h ⊢
    exact ⟨by omega, h.2⟩

/-- A write inside the buffer keeps the canonical form from an offset on. -/
theorem Memory.wfFrom_write {m : Memory} {lo k : Nat} (v : Byte) (h : Memory.wfFrom lo m = true) (hlo : lo ≤ k)
    (hk : k < 6) : Memory.wfFrom lo (Memory.write m k v) = true := by
  induction m generalizing lo with
  | nil => exact (Memory.wfFrom_cons lo k v []).2 ⟨hlo, hk, rfl⟩
  | cons c rest ih =>
    obtain ⟨a, w⟩ := c
    have h' := (Memory.wfFrom_cons lo a w rest).1 h
    simp only [Memory.write]
    split
    · exact (Memory.wfFrom_cons _ _ _ _).2 ⟨h'.1, h'.2.1, ih h'.2.2 (by omega)⟩
    · split
      · exact (Memory.wfFrom_cons _ _ _ _).2 ⟨hlo, hk, Memory.wfFrom_mono h'.2.2 (by omega)⟩
      · exact (Memory.wfFrom_cons _ _ _ _).2 ⟨hlo, hk, (Memory.wfFrom_cons _ _ _ _).2 ⟨by omega, h'.2⟩⟩

/-- A write inside the buffer keeps the canonical form. -/
theorem Memory.wf_write {m : Memory} {k : Nat} (v : Byte) (h : Memory.wf m = true) (hk : k < 6) :
    Memory.wf (Memory.write m k v) = true := Memory.wfFrom_write v h (Nat.zero_le k) hk

theorem Memory.wf_empty : Memory.wf [] = true := rfl

/-- Below the offset a canonical list starts at, nothing is listed. -/
theorem Memory.read_below {m : Memory} {lo k : Nat} (h : Memory.wfFrom lo m = true) (hk : k < lo) :
    Memory.read m k = none := by
  induction m generalizing lo with
  | nil => rfl
  | cons c rest ih =>
    obtain ⟨a, v⟩ := c
    rw [Memory.wfFrom_cons] at h
    rw [Memory.read_cons, if_neg (by omega)]
    exact ih h.2.2 (by omega)

/-- Two canonical buffers that read alike at every offset are the same list. -/
theorem Memory.eq_of_read_eq {m n : Memory} {lo : Nat} (hm : Memory.wfFrom lo m = true)
    (hn : Memory.wfFrom lo n = true) (h : ∀ k, Memory.read m k = Memory.read n k) : m = n := by
  induction m generalizing lo n with
  | nil =>
    cases n with
    | nil => rfl
    | cons d rest =>
      obtain ⟨b, w⟩ := d
      simpa [Memory.read_cons] using h b
  | cons c rest ih =>
    obtain ⟨a, v⟩ := c
    rw [Memory.wfFrom_cons] at hm
    cases n with
    | nil => simpa [Memory.read_cons] using h a
    | cons d rest' =>
      obtain ⟨b, w⟩ := d
      rw [Memory.wfFrom_cons] at hn
      have hab : a = b := by
        rcases Nat.lt_trichotomy a b with hlt | heq | hlt
        · have ha := h a
          rw [Memory.read_cons, if_pos rfl, Memory.read_cons, if_neg (by omega),
            Memory.read_below hn.2.2 (by omega)] at ha
          exact absurd ha (by simp)
        · exact heq
        · have hb := h b
          rw [Memory.read_cons, if_neg (by omega), Memory.read_below hm.2.2 (by omega), Memory.read_cons,
            if_pos rfl] at hb
          exact absurd hb (by simp)
      subst hab
      have hvw : v = w := by simpa [Memory.read_cons] using h a
      subst hvw
      rw [ih hm.2.2 hn.2.2]
      intro k
      rcases Nat.lt_or_ge a k with hlt | hge
      · simpa [Memory.read_cons, show a ≠ k by omega] using h k
      · rw [Memory.read_below hm.2.2 (by omega), Memory.read_below hn.2.2 (by omega)]

@[simp] theorem Memory.writeBytes_nil (m : Memory) : Memory.writeBytes m [] = m := rfl

@[simp] theorem Memory.writeBytes_cons (m : Memory) (a : Offset) (v : Byte) (rest : List (Offset × Byte)) :
    Memory.writeBytes m ((a, v) :: rest) = Memory.writeBytes (Memory.write m a.val v) rest := rfl

/-- Offsets that no write of the list names read as before. -/
theorem Memory.read_writeBytes_of_not_mem (m : Memory) (cells : List (Offset × Byte)) {k : Nat}
    (h : ∀ c ∈ cells, c.1.val ≠ k) : Memory.read (Memory.writeBytes m cells) k = Memory.read m k := by
  induction cells generalizing m with
  | nil => rfl
  | cons c rest ih =>
    obtain ⟨a, v⟩ := c
    rw [Memory.writeBytes_cons, ih _ (fun c hc => h c (List.mem_cons_of_mem _ hc)), Memory.read_write,
      if_neg (fun hk => h (a, v) (List.mem_cons_self ..) hk.symm)]

/-- Writes at offsets keep the canonical form. -/
theorem Memory.wf_writeBytes {m : Memory} (cells : List (Offset × Byte)) (h : Memory.wf m = true) :
    Memory.wf (Memory.writeBytes m cells) = true := by
  induction cells generalizing m with
  | nil => exact h
  | cons c rest ih =>
    obtain ⟨a, v⟩ := c
    exact ih (Memory.wf_write v h a.isLt)

end Sys2Proof.Machine
end

