-- ==== Sys2Proof/Laws/State.lean ====
section
/-! SUPPORT. One lemma per field per named update of the state: each says what the update leaves in the field. -/

namespace Sys2Proof.Machine

/-! ### State.setPc -/

@[simp] theorem State.setPc_mode (s : State) (p : Phase) : (s.setPc p).mode = s.mode := rfl
@[simp] theorem State.setPc_direction (s : State) (p : Phase) : (s.setPc p).direction = s.direction := rfl
@[simp] theorem State.setPc_velocity (s : State) (p : Phase) : (s.setPc p).velocity = s.velocity := rfl
@[simp] theorem State.setPc_position (s : State) (p : Phase) : (s.setPc p).position = s.position := rfl
@[simp] theorem State.setPc_posSetpoint (s : State) (p : Phase) : (s.setPc p).posSetpoint = s.posSetpoint := rfl
@[simp] theorem State.setPc_travelVelocity (s : State) (p : Phase) : (s.setPc p).travelVelocity = s.travelVelocity := rfl
@[simp] theorem State.setPc_velSetpoint (s : State) (p : Phase) : (s.setPc p).velSetpoint = s.velSetpoint := rfl
@[simp] theorem State.setPc_dirSetpoint (s : State) (p : Phase) : (s.setPc p).dirSetpoint = s.dirSetpoint := rfl
@[simp] theorem State.setPc_runStatus (s : State) (p : Phase) : (s.setPc p).runStatus = s.runStatus := rfl
@[simp] theorem State.setPc_enable (s : State) (p : Phase) : (s.setPc p).enable = s.enable := rfl
@[simp] theorem State.setPc_stopInterlockEnabled (s : State) (p : Phase) : (s.setPc p).stopInterlockEnabled = s.stopInterlockEnabled := rfl
@[simp] theorem State.setPc_timerTop (s : State) (p : Phase) : (s.setPc p).timerTop = s.timerTop := rfl
@[simp] theorem State.setPc_outputEnabled (s : State) (p : Phase) : (s.setPc p).outputEnabled = s.outputEnabled := rfl
@[simp] theorem State.setPc_trigger (s : State) (p : Phase) : (s.setPc p).trigger = s.trigger := rfl
@[simp] theorem State.setPc_dio (s : State) (p : Phase) : (s.setPc p).dio = s.dio := rfl
@[simp] theorem State.setPc_pc (s : State) (p : Phase) : (s.setPc p).pc = p := rfl
@[simp] theorem State.setPc_pkt (s : State) (p : Phase) : (s.setPc p).pkt = s.pkt := rfl
@[simp] theorem State.setPc_latches (s : State) (p : Phase) : (s.setPc p).latches = s.latches := rfl
@[simp] theorem State.setPc_halted (s : State) (p : Phase) : (s.setPc p).halted = s.halted := rfl
@[simp] theorem State.setPc_ie (s : State) (p : Phase) : (s.setPc p).ie = s.ie := rfl
@[simp] theorem State.setPc_stepPending (s : State) (p : Phase) : (s.setPc p).stepPending = s.stepPending := rfl
@[simp] theorem State.setPc_stopPending (s : State) (p : Phase) : (s.setPc p).stopPending = s.stopPending := rfl
@[simp] theorem State.setPc_stopLevel (s : State) (p : Phase) : (s.setPc p).stopLevel = s.stopLevel := rfl
@[simp] theorem State.setPc_timerCount (s : State) (p : Phase) : (s.setPc p).timerCount = s.timerCount := rfl
@[simp] theorem State.setPc_prescaleCount (s : State) (p : Phase) : (s.setPc p).prescaleCount = s.prescaleCount := rfl
@[simp] theorem State.setPc_history (s : State) (p : Phase) : (s.setPc p).history = s.history := rfl
@[simp] theorem State.setPc_cfg (s : State) (p : Phase) : (s.setPc p).cfg = s.cfg := rfl
@[simp] theorem State.setPc_agenda (s : State) (p : Phase) : (s.setPc p).agenda = s.agenda := rfl
@[simp] theorem State.setPc_draws (s : State) (p : Phase) : (s.setPc p).draws = s.draws := rfl

/-! ### State.emit -/

@[simp] theorem State.emit_mode (s : State) (e : OutputEvent) : (s.emit e).mode = s.mode := rfl
@[simp] theorem State.emit_direction (s : State) (e : OutputEvent) : (s.emit e).direction = s.direction := rfl
@[simp] theorem State.emit_velocity (s : State) (e : OutputEvent) : (s.emit e).velocity = s.velocity := rfl
@[simp] theorem State.emit_position (s : State) (e : OutputEvent) : (s.emit e).position = s.position := rfl
@[simp] theorem State.emit_posSetpoint (s : State) (e : OutputEvent) : (s.emit e).posSetpoint = s.posSetpoint := rfl
@[simp] theorem State.emit_travelVelocity (s : State) (e : OutputEvent) : (s.emit e).travelVelocity = s.travelVelocity := rfl
@[simp] theorem State.emit_velSetpoint (s : State) (e : OutputEvent) : (s.emit e).velSetpoint = s.velSetpoint := rfl
@[simp] theorem State.emit_dirSetpoint (s : State) (e : OutputEvent) : (s.emit e).dirSetpoint = s.dirSetpoint := rfl
@[simp] theorem State.emit_runStatus (s : State) (e : OutputEvent) : (s.emit e).runStatus = s.runStatus := rfl
@[simp] theorem State.emit_enable (s : State) (e : OutputEvent) : (s.emit e).enable = s.enable := rfl
@[simp] theorem State.emit_stopInterlockEnabled (s : State) (e : OutputEvent) : (s.emit e).stopInterlockEnabled = s.stopInterlockEnabled := rfl
@[simp] theorem State.emit_timerTop (s : State) (e : OutputEvent) : (s.emit e).timerTop = s.timerTop := rfl
@[simp] theorem State.emit_outputEnabled (s : State) (e : OutputEvent) : (s.emit e).outputEnabled = s.outputEnabled := rfl
@[simp] theorem State.emit_trigger (s : State) (e : OutputEvent) : (s.emit e).trigger = s.trigger := rfl
@[simp] theorem State.emit_dio (s : State) (e : OutputEvent) : (s.emit e).dio = s.dio := rfl
@[simp] theorem State.emit_pc (s : State) (e : OutputEvent) : (s.emit e).pc = s.pc := rfl
@[simp] theorem State.emit_pkt (s : State) (e : OutputEvent) : (s.emit e).pkt = s.pkt := rfl
@[simp] theorem State.emit_latches (s : State) (e : OutputEvent) : (s.emit e).latches = s.latches := rfl
@[simp] theorem State.emit_halted (s : State) (e : OutputEvent) : (s.emit e).halted = s.halted := rfl
@[simp] theorem State.emit_ie (s : State) (e : OutputEvent) : (s.emit e).ie = s.ie := rfl
@[simp] theorem State.emit_stepPending (s : State) (e : OutputEvent) : (s.emit e).stepPending = s.stepPending := rfl
@[simp] theorem State.emit_stopPending (s : State) (e : OutputEvent) : (s.emit e).stopPending = s.stopPending := rfl
@[simp] theorem State.emit_stopLevel (s : State) (e : OutputEvent) : (s.emit e).stopLevel = s.stopLevel := rfl
@[simp] theorem State.emit_timerCount (s : State) (e : OutputEvent) : (s.emit e).timerCount = s.timerCount := rfl
@[simp] theorem State.emit_prescaleCount (s : State) (e : OutputEvent) : (s.emit e).prescaleCount = s.prescaleCount := rfl
@[simp] theorem State.emit_history (s : State) (e : OutputEvent) : (s.emit e).history = s.history ++ [e] := rfl
@[simp] theorem State.emit_cfg (s : State) (e : OutputEvent) : (s.emit e).cfg = s.cfg := rfl
@[simp] theorem State.emit_agenda (s : State) (e : OutputEvent) : (s.emit e).agenda = s.agenda := rfl
@[simp] theorem State.emit_draws (s : State) (e : OutputEvent) : (s.emit e).draws = s.draws := rfl

/-! ### State.setPacket -/

@[simp] theorem State.setPacket_mode (s : State) (p : Packet) : (s.setPacket p).mode = s.mode := rfl
@[simp] theorem State.setPacket_direction (s : State) (p : Packet) : (s.setPacket p).direction = s.direction := rfl
@[simp] theorem State.setPacket_velocity (s : State) (p : Packet) : (s.setPacket p).velocity = s.velocity := rfl
@[simp] theorem State.setPacket_position (s : State) (p : Packet) : (s.setPacket p).position = s.position := rfl
@[simp] theorem State.setPacket_posSetpoint (s : State) (p : Packet) : (s.setPacket p).posSetpoint = s.posSetpoint := rfl
@[simp] theorem State.setPacket_travelVelocity (s : State) (p : Packet) : (s.setPacket p).travelVelocity = s.travelVelocity := rfl
@[simp] theorem State.setPacket_velSetpoint (s : State) (p : Packet) : (s.setPacket p).velSetpoint = s.velSetpoint := rfl
@[simp] theorem State.setPacket_dirSetpoint (s : State) (p : Packet) : (s.setPacket p).dirSetpoint = s.dirSetpoint := rfl
@[simp] theorem State.setPacket_runStatus (s : State) (p : Packet) : (s.setPacket p).runStatus = s.runStatus := rfl
@[simp] theorem State.setPacket_enable (s : State) (p : Packet) : (s.setPacket p).enable = s.enable := rfl
@[simp] theorem State.setPacket_stopInterlockEnabled (s : State) (p : Packet) : (s.setPacket p).stopInterlockEnabled = s.stopInterlockEnabled := rfl
@[simp] theorem State.setPacket_timerTop (s : State) (p : Packet) : (s.setPacket p).timerTop = s.timerTop := rfl
@[simp] theorem State.setPacket_outputEnabled (s : State) (p : Packet) : (s.setPacket p).outputEnabled = s.outputEnabled := rfl
@[simp] theorem State.setPacket_trigger (s : State) (p : Packet) : (s.setPacket p).trigger = s.trigger := rfl
@[simp] theorem State.setPacket_dio (s : State) (p : Packet) : (s.setPacket p).dio = s.dio := rfl
@[simp] theorem State.setPacket_pc (s : State) (p : Packet) : (s.setPacket p).pc = s.pc := rfl
@[simp] theorem State.setPacket_latches (s : State) (p : Packet) : (s.setPacket p).latches = s.latches := rfl
@[simp] theorem State.setPacket_halted (s : State) (p : Packet) : (s.setPacket p).halted = s.halted := rfl
@[simp] theorem State.setPacket_ie (s : State) (p : Packet) : (s.setPacket p).ie = s.ie := rfl
@[simp] theorem State.setPacket_stepPending (s : State) (p : Packet) : (s.setPacket p).stepPending = s.stepPending := rfl
@[simp] theorem State.setPacket_stopPending (s : State) (p : Packet) : (s.setPacket p).stopPending = s.stopPending := rfl
@[simp] theorem State.setPacket_stopLevel (s : State) (p : Packet) : (s.setPacket p).stopLevel = s.stopLevel := rfl
@[simp] theorem State.setPacket_timerCount (s : State) (p : Packet) : (s.setPacket p).timerCount = s.timerCount := rfl
@[simp] theorem State.setPacket_prescaleCount (s : State) (p : Packet) : (s.setPacket p).prescaleCount = s.prescaleCount := rfl
@[simp] theorem State.setPacket_history (s : State) (p : Packet) : (s.setPacket p).history = s.history := rfl
@[simp] theorem State.setPacket_cfg (s : State) (p : Packet) : (s.setPacket p).cfg = s.cfg := rfl
@[simp] theorem State.setPacket_agenda (s : State) (p : Packet) : (s.setPacket p).agenda = s.agenda := rfl
@[simp] theorem State.setPacket_draws (s : State) (p : Packet) : (s.setPacket p).draws = s.draws := rfl

/-! ### State.respondU8 -/

@[simp] theorem State.respondU8_mode (s : State) (v : Byte) : (s.respondU8 v).mode = s.mode := rfl
@[simp] theorem State.respondU8_direction (s : State) (v : Byte) : (s.respondU8 v).direction = s.direction := rfl
@[simp] theorem State.respondU8_velocity (s : State) (v : Byte) : (s.respondU8 v).velocity = s.velocity := rfl
@[simp] theorem State.respondU8_position (s : State) (v : Byte) : (s.respondU8 v).position = s.position := rfl
@[simp] theorem State.respondU8_posSetpoint (s : State) (v : Byte) : (s.respondU8 v).posSetpoint = s.posSetpoint := rfl
@[simp] theorem State.respondU8_travelVelocity (s : State) (v : Byte) : (s.respondU8 v).travelVelocity = s.travelVelocity := rfl
@[simp] theorem State.respondU8_velSetpoint (s : State) (v : Byte) : (s.respondU8 v).velSetpoint = s.velSetpoint := rfl
@[simp] theorem State.respondU8_dirSetpoint (s : State) (v : Byte) : (s.respondU8 v).dirSetpoint = s.dirSetpoint := rfl
@[simp] theorem State.respondU8_runStatus (s : State) (v : Byte) : (s.respondU8 v).runStatus = s.runStatus := rfl
@[simp] theorem State.respondU8_enable (s : State) (v : Byte) : (s.respondU8 v).enable = s.enable := rfl
@[simp] theorem State.respondU8_stopInterlockEnabled (s : State) (v : Byte) : (s.respondU8 v).stopInterlockEnabled = s.stopInterlockEnabled := rfl
@[simp] theorem State.respondU8_timerTop (s : State) (v : Byte) : (s.respondU8 v).timerTop = s.timerTop := rfl
@[simp] theorem State.respondU8_outputEnabled (s : State) (v : Byte) : (s.respondU8 v).outputEnabled = s.outputEnabled := rfl
@[simp] theorem State.respondU8_trigger (s : State) (v : Byte) : (s.respondU8 v).trigger = s.trigger := rfl
@[simp] theorem State.respondU8_dio (s : State) (v : Byte) : (s.respondU8 v).dio = s.dio := rfl
@[simp] theorem State.respondU8_pc (s : State) (v : Byte) : (s.respondU8 v).pc = s.pc := rfl
@[simp] theorem State.respondU8_latches (s : State) (v : Byte) : (s.respondU8 v).latches = s.latches := rfl
@[simp] theorem State.respondU8_halted (s : State) (v : Byte) : (s.respondU8 v).halted = s.halted := rfl
@[simp] theorem State.respondU8_ie (s : State) (v : Byte) : (s.respondU8 v).ie = s.ie := rfl
@[simp] theorem State.respondU8_stepPending (s : State) (v : Byte) : (s.respondU8 v).stepPending = s.stepPending := rfl
@[simp] theorem State.respondU8_stopPending (s : State) (v : Byte) : (s.respondU8 v).stopPending = s.stopPending := rfl
@[simp] theorem State.respondU8_stopLevel (s : State) (v : Byte) : (s.respondU8 v).stopLevel = s.stopLevel := rfl
@[simp] theorem State.respondU8_timerCount (s : State) (v : Byte) : (s.respondU8 v).timerCount = s.timerCount := rfl
@[simp] theorem State.respondU8_prescaleCount (s : State) (v : Byte) : (s.respondU8 v).prescaleCount = s.prescaleCount := rfl
@[simp] theorem State.respondU8_history (s : State) (v : Byte) : (s.respondU8 v).history = s.history := rfl
@[simp] theorem State.respondU8_cfg (s : State) (v : Byte) : (s.respondU8 v).cfg = s.cfg := rfl
@[simp] theorem State.respondU8_agenda (s : State) (v : Byte) : (s.respondU8 v).agenda = s.agenda := rfl
@[simp] theorem State.respondU8_draws (s : State) (v : Byte) : (s.respondU8 v).draws = s.draws + 3 := rfl

/-! ### State.respondU16 -/

@[simp] theorem State.respondU16_mode (s : State) (v : Half) : (s.respondU16 v).mode = s.mode := rfl
@[simp] theorem State.respondU16_direction (s : State) (v : Half) : (s.respondU16 v).direction = s.direction := rfl
@[simp] theorem State.respondU16_velocity (s : State) (v : Half) : (s.respondU16 v).velocity = s.velocity := rfl
@[simp] theorem State.respondU16_position (s : State) (v : Half) : (s.respondU16 v).position = s.position := rfl
@[simp] theorem State.respondU16_posSetpoint (s : State) (v : Half) : (s.respondU16 v).posSetpoint = s.posSetpoint := rfl
@[simp] theorem State.respondU16_travelVelocity (s : State) (v : Half) : (s.respondU16 v).travelVelocity = s.travelVelocity := rfl
@[simp] theorem State.respondU16_velSetpoint (s : State) (v : Half) : (s.respondU16 v).velSetpoint = s.velSetpoint := rfl
@[simp] theorem State.respondU16_dirSetpoint (s : State) (v : Half) : (s.respondU16 v).dirSetpoint = s.dirSetpoint := rfl
@[simp] theorem State.respondU16_runStatus (s : State) (v : Half) : (s.respondU16 v).runStatus = s.runStatus := rfl
@[simp] theorem State.respondU16_enable (s : State) (v : Half) : (s.respondU16 v).enable = s.enable := rfl
@[simp] theorem State.respondU16_stopInterlockEnabled (s : State) (v : Half) : (s.respondU16 v).stopInterlockEnabled = s.stopInterlockEnabled := rfl
@[simp] theorem State.respondU16_timerTop (s : State) (v : Half) : (s.respondU16 v).timerTop = s.timerTop := rfl
@[simp] theorem State.respondU16_outputEnabled (s : State) (v : Half) : (s.respondU16 v).outputEnabled = s.outputEnabled := rfl
@[simp] theorem State.respondU16_trigger (s : State) (v : Half) : (s.respondU16 v).trigger = s.trigger := rfl
@[simp] theorem State.respondU16_dio (s : State) (v : Half) : (s.respondU16 v).dio = s.dio := rfl
@[simp] theorem State.respondU16_pc (s : State) (v : Half) : (s.respondU16 v).pc = s.pc := rfl
@[simp] theorem State.respondU16_latches (s : State) (v : Half) : (s.respondU16 v).latches = s.latches := rfl
@[simp] theorem State.respondU16_halted (s : State) (v : Half) : (s.respondU16 v).halted = s.halted := rfl
@[simp] theorem State.respondU16_ie (s : State) (v : Half) : (s.respondU16 v).ie = s.ie := rfl
@[simp] theorem State.respondU16_stepPending (s : State) (v : Half) : (s.respondU16 v).stepPending = s.stepPending := rfl
@[simp] theorem State.respondU16_stopPending (s : State) (v : Half) : (s.respondU16 v).stopPending = s.stopPending := rfl
@[simp] theorem State.respondU16_stopLevel (s : State) (v : Half) : (s.respondU16 v).stopLevel = s.stopLevel := rfl
@[simp] theorem State.respondU16_timerCount (s : State) (v : Half) : (s.respondU16 v).timerCount = s.timerCount := rfl
@[simp] theorem State.respondU16_prescaleCount (s : State) (v : Half) : (s.respondU16 v).prescaleCount = s.prescaleCount := rfl
@[simp] theorem State.respondU16_history (s : State) (v : Half) : (s.respondU16 v).history = s.history := rfl
@[simp] theorem State.respondU16_cfg (s : State) (v : Half) : (s.respondU16 v).cfg = s.cfg := rfl
@[simp] theorem State.respondU16_agenda (s : State) (v : Half) : (s.respondU16 v).agenda = s.agenda := rfl
@[simp] theorem State.respondU16_draws (s : State) (v : Half) : (s.respondU16 v).draws = s.draws + 2 := rfl

/-! ### State.respondI32 -/

@[simp] theorem State.respondI32_mode (s : State) (v : Word) : (s.respondI32 v).mode = s.mode := rfl
@[simp] theorem State.respondI32_direction (s : State) (v : Word) : (s.respondI32 v).direction = s.direction := rfl
@[simp] theorem State.respondI32_velocity (s : State) (v : Word) : (s.respondI32 v).velocity = s.velocity := rfl
@[simp] theorem State.respondI32_position (s : State) (v : Word) : (s.respondI32 v).position = s.position := rfl
@[simp] theorem State.respondI32_posSetpoint (s : State) (v : Word) : (s.respondI32 v).posSetpoint = s.posSetpoint := rfl
@[simp] theorem State.respondI32_travelVelocity (s : State) (v : Word) : (s.respondI32 v).travelVelocity = s.travelVelocity := rfl
@[simp] theorem State.respondI32_velSetpoint (s : State) (v : Word) : (s.respondI32 v).velSetpoint = s.velSetpoint := rfl
@[simp] theorem State.respondI32_dirSetpoint (s : State) (v : Word) : (s.respondI32 v).dirSetpoint = s.dirSetpoint := rfl
@[simp] theorem State.respondI32_runStatus (s : State) (v : Word) : (s.respondI32 v).runStatus = s.runStatus := rfl
@[simp] theorem State.respondI32_enable (s : State) (v : Word) : (s.respondI32 v).enable = s.enable := rfl
@[simp] theorem State.respondI32_stopInterlockEnabled (s : State) (v : Word) : (s.respondI32 v).stopInterlockEnabled = s.stopInterlockEnabled := rfl
@[simp] theorem State.respondI32_timerTop (s : State) (v : Word) : (s.respondI32 v).timerTop = s.timerTop := rfl
@[simp] theorem State.respondI32_outputEnabled (s : State) (v : Word) : (s.respondI32 v).outputEnabled = s.outputEnabled := rfl
@[simp] theorem State.respondI32_trigger (s : State) (v : Word) : (s.respondI32 v).trigger = s.trigger := rfl
@[simp] theorem State.respondI32_dio (s : State) (v : Word) : (s.respondI32 v).dio = s.dio := rfl
@[simp] theorem State.respondI32_pc (s : State) (v : Word) : (s.respondI32 v).pc = s.pc := rfl
@[simp] theorem State.respondI32_latches (s : State) (v : Word) : (s.respondI32 v).latches = s.latches := rfl
@[simp] theorem State.respondI32_halted (s : State) (v : Word) : (s.respondI32 v).halted = s.halted := rfl
@[simp] theorem State.respondI32_ie (s : State) (v : Word) : (s.respondI32 v).ie = s.ie := rfl
@[simp] theorem State.respondI32_stepPending (s : State) (v : Word) : (s.respondI32 v).stepPending = s.stepPending := rfl
@[simp] theorem State.respondI32_stopPending (s : State) (v : Word) : (s.respondI32 v).stopPending = s.stopPending := rfl
@[simp] theorem State.respondI32_stopLevel (s : State) (v : Word) : (s.respondI32 v).stopLevel = s.stopLevel := rfl
@[simp] theorem State.respondI32_timerCount (s : State) (v : Word) : (s.respondI32 v).timerCount = s.timerCount := rfl
@[simp] theorem State.respondI32_prescaleCount (s : State) (v : Word) : (s.respondI32 v).prescaleCount = s.prescaleCount := rfl
@[simp] theorem State.respondI32_history (s : State) (v : Word) : (s.respondI32 v).history = s.history := rfl
@[simp] theorem State.respondI32_cfg (s : State) (v : Word) : (s.respondI32 v).cfg = s.cfg := rfl
@[simp] theorem State.respondI32_agenda (s : State) (v : Word) : (s.respondI32 v).agenda = s.agenda := rfl
@[simp] theorem State.respondI32_draws (s : State) (v : Word) : (s.respondI32 v).draws = s.draws := rfl

/-! ### setOutputEnabled -/

@[simp] theorem setOutputEnabled_mode (s : State) (b : Bool) : (setOutputEnabled b s).mode = s.mode := rfl
@[simp] theorem setOutputEnabled_direction (s : State) (b : Bool) : (setOutputEnabled b s).direction = s.direction := rfl
@[simp] theorem setOutputEnabled_velocity (s : State) (b : Bool) : (setOutputEnabled b s).velocity = s.velocity := rfl
@[simp] theorem setOutputEnabled_position (s : State) (b : Bool) : (setOutputEnabled b s).position = s.position := rfl
@[simp] theorem setOutputEnabled_posSetpoint (s : State) (b : Bool) : (setOutputEnabled b s).posSetpoint = s.posSetpoint := rfl
@[simp] theorem setOutputEnabled_travelVelocity (s : State) (b : Bool) : (setOutputEnabled b s).travelVelocity = s.travelVelocity := rfl
@[simp] theorem setOutputEnabled_velSetpoint (s : State) (b : Bool) : (setOutputEnabled b s).velSetpoint = s.velSetpoint := rfl
@[simp] theorem setOutputEnabled_dirSetpoint (s : State) (b : Bool) : (setOutputEnabled b s).dirSetpoint = s.dirSetpoint := rfl
@[simp] theorem setOutputEnabled_runStatus (s : State) (b : Bool) : (setOutputEnabled b s).runStatus = s.runStatus := rfl
@[simp] theorem setOutputEnabled_enable (s : State) (b : Bool) : (setOutputEnabled b s).enable = s.enable := rfl
@[simp] theorem setOutputEnabled_stopInterlockEnabled (s : State) (b : Bool) : (setOutputEnabled b s).stopInterlockEnabled = s.stopInterlockEnabled := rfl
@[simp] theorem setOutputEnabled_timerTop (s : State) (b : Bool) : (setOutputEnabled b s).timerTop = s.timerTop := rfl
@[simp] theorem setOutputEnabled_outputEnabled (s : State) (b : Bool) : (setOutputEnabled b s).outputEnabled = b := rfl
@[simp] theorem setOutputEnabled_trigger (s : State) (b : Bool) : (setOutputEnabled b s).trigger = s.trigger := rfl
@[simp] theorem setOutputEnabled_dio (s : State) (b : Bool) : (setOutputEnabled b s).dio = s.dio := rfl
@[simp] theorem setOutputEnabled_pc (s : State) (b : Bool) : (setOutputEnabled b s).pc = s.pc := rfl
@[simp] theorem setOutputEnabled_pkt (s : State) (b : Bool) : (setOutputEnabled b s).pkt = s.pkt := rfl
@[simp] theorem setOutputEnabled_latches (s : State) (b : Bool) : (setOutputEnabled b s).latches = s.latches := rfl
@[simp] theorem setOutputEnabled_halted (s : State) (b : Bool) : (setOutputEnabled b s).halted = s.halted := rfl
@[simp] theorem setOutputEnabled_ie (s : State) (b : Bool) : (setOutputEnabled b s).ie = s.ie := rfl
@[simp] theorem setOutputEnabled_stepPending (s : State) (b : Bool) : (setOutputEnabled b s).stepPending = s.stepPending := rfl
@[simp] theorem setOutputEnabled_stopPending (s : State) (b : Bool) : (setOutputEnabled b s).stopPending = s.stopPending := rfl
@[simp] theorem setOutputEnabled_stopLevel (s : State) (b : Bool) : (setOutputEnabled b s).stopLevel = s.stopLevel := rfl
@[simp] theorem setOutputEnabled_timerCount (s : State) (b : Bool) : (setOutputEnabled b s).timerCount = s.timerCount := rfl
@[simp] theorem setOutputEnabled_prescaleCount (s : State) (b : Bool) : (setOutputEnabled b s).prescaleCount = s.prescaleCount := rfl
@[simp] theorem setOutputEnabled_history (s : State) (b : Bool) : (setOutputEnabled b s).history = s.history := rfl
@[simp] theorem setOutputEnabled_cfg (s : State) (b : Bool) : (setOutputEnabled b s).cfg = s.cfg := rfl
@[simp] theorem setOutputEnabled_agenda (s : State) (b : Bool) : (setOutputEnabled b s).agenda = s.agenda := rfl
@[simp] theorem setOutputEnabled_draws (s : State) (b : Bool) : (setOutputEnabled b s).draws = s.draws := rfl

/-! ### State.ofResets -/

@[simp] theorem State.ofResets_mode (p : Params) : (State.ofResets p).mode = p.resets.mode := rfl
@[simp] theorem State.ofResets_direction (p : Params) : (State.ofResets p).direction = p.resets.direction := rfl
@[simp] theorem State.ofResets_velocity (p : Params) : (State.ofResets p).velocity = p.resets.velocity := rfl
@[simp] theorem State.ofResets_position (p : Params) : (State.ofResets p).position = p.resets.position := rfl
@[simp] theorem State.ofResets_posSetpoint (p : Params) : (State.ofResets p).posSetpoint = p.resets.posSetpoint := rfl
@[simp] theorem State.ofResets_travelVelocity (p : Params) : (State.ofResets p).travelVelocity = p.resets.travelVelocity := rfl
@[simp] theorem State.ofResets_velSetpoint (p : Params) : (State.ofResets p).velSetpoint = p.resets.velSetpoint := rfl
@[simp] theorem State.ofResets_dirSetpoint (p : Params) : (State.ofResets p).dirSetpoint = p.resets.dirSetpoint := rfl
@[simp] theorem State.ofResets_runStatus (p : Params) : (State.ofResets p).runStatus = p.resets.runStatus := rfl
@[simp] theorem State.ofResets_enable (p : Params) : (State.ofResets p).enable = p.resets.enable := rfl
@[simp] theorem State.ofResets_stopInterlockEnabled (p : Params) : (State.ofResets p).stopInterlockEnabled = p.resets.stopInterlockEnabled := rfl
@[simp] theorem State.ofResets_timerTop (p : Params) : (State.ofResets p).timerTop = p.resets.timerTop := rfl
@[simp] theorem State.ofResets_outputEnabled (p : Params) : (State.ofResets p).outputEnabled = p.resets.outputEnabled := rfl
@[simp] theorem State.ofResets_trigger (p : Params) : (State.ofResets p).trigger = p.resets.trigger := rfl
@[simp] theorem State.ofResets_dio (p : Params) : (State.ofResets p).dio = p.resets.dio := rfl
@[simp] theorem State.ofResets_pc (p : Params) : (State.ofResets p).pc = p.resets.pc := rfl
@[simp] theorem State.ofResets_halted (p : Params) : (State.ofResets p).halted = p.resets.halted := rfl
@[simp] theorem State.ofResets_ie (p : Params) : (State.ofResets p).ie = p.resets.ie := rfl
@[simp] theorem State.ofResets_stepPending (p : Params) : (State.ofResets p).stepPending = p.resets.stepPending := rfl
@[simp] theorem State.ofResets_stopPending (p : Params) : (State.ofResets p).stopPending = p.resets.stopPending := rfl
@[simp] theorem State.ofResets_timerCount (p : Params) : (State.ofResets p).timerCount = p.resets.timerCount := rfl
@[simp] theorem State.ofResets_prescaleCount (p : Params) : (State.ofResets p).prescaleCount = p.resets.prescaleCount := rfl
@[simp] theorem State.ofResets_pkt (p : Params) : (State.ofResets p).pkt = [] := rfl
@[simp] theorem State.ofResets_latches (p : Params) : (State.ofResets p).latches = Latches.reset := rfl
@[simp] theorem State.ofResets_stopLevel (p : Params) : (State.ofResets p).stopLevel = false := rfl
@[simp] theorem State.ofResets_history (p : Params) : (State.ofResets p).history = [] := rfl
@[simp] theorem State.ofResets_cfg (p : Params) : (State.ofResets p).cfg = p := rfl
@[simp] theorem State.ofResets_agenda (p : Params) : (State.ofResets p).agenda = [] := rfl
@[simp] theorem State.ofResets_draws (p : Params) : (State.ofResets p).draws = 0 := rfl

/-! ### resetBlock -/

@[simp] theorem resetBlock_mode (level : Bool) (s : State) : (resetBlock level s).mode = s.cfg.resets.mode := rfl
@[simp] theorem resetBlock_direction (level : Bool) (s : State) : (resetBlock level s).direction = s.cfg.resets.direction := rfl
@[simp] theorem resetBlock_velocity (level : Bool) (s : State) : (resetBlock level s).velocity = s.cfg.resets.velocity := rfl
@[simp] theorem resetBlock_position (level : Bool) (s : State) : (resetBlock level s).position = s.cfg.resets.position := rfl
@[simp] theorem resetBlock_posSetpoint (level : Bool) (s : State) : (resetBlock level s).posSetpoint = s.cfg.resets.posSetpoint := rfl
@[simp] theorem resetBlock_travelVelocity (level : Bool) (s : State) : (resetBlock level s).travelVelocity = s.cfg.resets.travelVelocity := rfl
@[simp] theorem resetBlock_velSetpoint (level : Bool) (s : State) : (resetBlock level s).velSetpoint = s.cfg.resets.velSetpoint := rfl
@[simp] theorem resetBlock_dirSetpoint (level : Bool) (s : State) : (resetBlock level s).dirSetpoint = s.cfg.resets.dirSetpoint := rfl
@[simp] theorem resetBlock_runStatus (level : Bool) (s : State) : (resetBlock level s).runStatus = s.cfg.resets.runStatus := rfl
@[simp] theorem resetBlock_enable (level : Bool) (s : State) : (resetBlock level s).enable = s.cfg.resets.enable := rfl
@[simp] theorem resetBlock_stopInterlockEnabled (level : Bool) (s : State) : (resetBlock level s).stopInterlockEnabled = s.cfg.resets.stopInterlockEnabled := rfl
@[simp] theorem resetBlock_timerTop (level : Bool) (s : State) : (resetBlock level s).timerTop = s.cfg.resets.timerTop := rfl
@[simp] theorem resetBlock_outputEnabled (level : Bool) (s : State) : (resetBlock level s).outputEnabled = s.cfg.resets.outputEnabled := rfl
@[simp] theorem resetBlock_trigger (level : Bool) (s : State) : (resetBlock level s).trigger = s.cfg.resets.trigger := rfl
@[simp] theorem resetBlock_dio (level : Bool) (s : State) : (resetBlock level s).dio = s.cfg.resets.dio := rfl
@[simp] theorem resetBlock_pc (level : Bool) (s : State) : (resetBlock level s).pc = s.cfg.resets.pc := rfl
@[simp] theorem resetBlock_halted (level : Bool) (s : State) : (resetBlock level s).halted = s.cfg.resets.halted := rfl
@[simp] theorem resetBlock_ie (level : Bool) (s : State) : (resetBlock level s).ie = s.cfg.resets.ie := rfl
@[simp] theorem resetBlock_stepPending (level : Bool) (s : State) : (resetBlock level s).stepPending = s.cfg.resets.stepPending := rfl
@[simp] theorem resetBlock_stopPending (level : Bool) (s : State) : (resetBlock level s).stopPending = s.cfg.resets.stopPending := rfl
@[simp] theorem resetBlock_timerCount (level : Bool) (s : State) : (resetBlock level s).timerCount = s.cfg.resets.timerCount := rfl
@[simp] theorem resetBlock_prescaleCount (level : Bool) (s : State) : (resetBlock level s).prescaleCount = s.cfg.resets.prescaleCount := rfl
@[simp] theorem resetBlock_latches (level : Bool) (s : State) : (resetBlock level s).latches = drawnLatches s.draws := rfl
@[simp] theorem resetBlock_stopLevel (level : Bool) (s : State) : (resetBlock level s).stopLevel = level := rfl
@[simp] theorem resetBlock_history (level : Bool) (s : State) : (resetBlock level s).history = s.history := rfl
@[simp] theorem resetBlock_cfg (level : Bool) (s : State) : (resetBlock level s).cfg = s.cfg := rfl
@[simp] theorem resetBlock_agenda (level : Bool) (s : State) : (resetBlock level s).agenda = s.agenda := rfl
@[simp] theorem resetBlock_draws (level : Bool) (s : State) : (resetBlock level s).draws = s.draws + 6 := rfl

end Sys2Proof.Machine
end

