-- ==== Sys2Proof/Laws/Ops.lean ====
section
/-! SUPPORT. What each shared operation does, said once: critical sections, the EXEC transaction, responses, handlers,
the reset, one step and a run of steps. -/

namespace Sys2Proof.Machine

/-! ### Critical sections and the EXEC transaction -/

theorem critical_eq (body : State → State) (s : State) :
    critical body s = { body { s with ie := false } with ie := s.ie } := rfl

theorem execTransaction_eq (next : Phase) (action : State → State) (s : State) :
    execTransaction next action s = .next { action { s with ie := false } with ie := s.ie, pc := next } := rfl

/-- A section restores the enable it found (R57). -/
@[simp] theorem critical_ie (body : State → State) (s : State) : (critical body s).ie = s.ie := rfl

@[simp] theorem critical_id (s : State) : critical id s = s := rfl

theorem phaseAfterExec_eq (ctl : ControlByte) : phaseAfterExec ctl = nextPhase ctl := by
  cases ctl <;> rfl

/-! ### Responses -/

theorem respondU8_pkt_read (s : State) (v : Byte) (k : Nat) :
    Memory.read (s.respondU8 v).pkt k =
      if k = 5 then some (s.drawnByte 2) else if k = 4 then some (s.drawnByte 1)
      else if k = 3 then some (s.drawnByte 0) else if k = 2 then some v else if k = 1 then some 0
      else Memory.read s.pkt k := by
  simp [State.respondU8, responseU8Cells]

theorem respondU16_pkt_read (s : State) (v : Half) (k : Nat) :
    Memory.read (s.respondU16 v).pkt k =
      if k = 5 then some (s.drawnByte 1) else if k = 4 then some (s.drawnByte 0)
      else if k = 3 then some (byteOf v 1) else if k = 2 then some (byteOf v 0) else if k = 1 then some 1
      else Memory.read s.pkt k := by
  simp [State.respondU16, responseU16Cells, payload16Cells]

theorem respondI32_pkt_read (s : State) (v : Word) (k : Nat) :
    Memory.read (s.respondI32 v).pkt k =
      if k = 5 then some (byteOf v 3) else if k = 4 then some (byteOf v 2)
      else if k = 3 then some (byteOf v 1) else if k = 2 then some (byteOf v 0) else if k = 1 then some 2
      else Memory.read s.pkt k := by
  simp [State.respondI32, responseI32Cells, payload32Cells]

theorem respondU8_answers (s : State) (v : Byte) (next : Phase) : AnswersU8 s ((s.respondU8 v).setPc next) v next := by
  refine ⟨rfl, rfl, ?_, ?_, fun a h => ?_⟩
  · simp [State.pktByte, respondU8_pkt_read]
  · simp [State.pktByte, respondU8_pkt_read]
  · rw [State.setPc_pkt, respondU8_pkt_read]
    split_ifs <;> first | omega | rfl

theorem respondU16_answers (s : State) (v : Half) (next : Phase) :
    AnswersU16 s ((s.respondU16 v).setPc next) v next := by
  refine ⟨rfl, rfl, ?_, ?_, ?_, fun a h => ?_⟩
  · simp [State.pktByte, respondU16_pkt_read]
  · simp [State.pktByte, respondU16_pkt_read, byteOf]
  · simp [State.pktByte, respondU16_pkt_read, byteOf]
  · rw [State.setPc_pkt, respondU16_pkt_read]
    split_ifs <;> first | omega | rfl

theorem respondI32_answers (s : State) (v : Word) (next : Phase) :
    AnswersI32 s ((s.respondI32 v).setPc next) v next := by
  refine ⟨rfl, rfl, rfl, ?_, ?_, ?_, ?_, ?_, fun a h => ?_⟩
  · simp [State.pktByte, respondI32_pkt_read]
  · simp [State.pktByte, respondI32_pkt_read, byteOf]
  · simp [State.pktByte, respondI32_pkt_read, byteOf]
  · simp [State.pktByte, respondI32_pkt_read, byteOf]
  · simp [State.pktByte, respondI32_pkt_read, byteOf]
  · rw [State.setPc_pkt, respondI32_pkt_read]
    split_ifs <;> first | omega | rfl

theorem respondU8_wf {s : State} (v : Byte) (h : Memory.wf s.pkt = true) : Memory.wf (s.respondU8 v).pkt = true :=
  Memory.wf_writeBytes _ h

theorem respondU16_wf {s : State} (v : Half) (h : Memory.wf s.pkt = true) : Memory.wf (s.respondU16 v).pkt = true :=
  Memory.wf_writeBytes _ h

theorem respondI32_wf {s : State} (v : Word) (h : Memory.wf s.pkt = true) : Memory.wf (s.respondI32 v).pkt = true :=
  Memory.wf_writeBytes _ h

/-! ### Whole packets -/

theorem setPacket_pkt_read (s : State) (p : Packet) (k : Nat) :
    Memory.read (s.setPacket p).pkt k =
      if k = 5 then some p.payload3 else if k = 4 then some p.payload2 else if k = 3 then some p.payload1
      else if k = 2 then some p.payload0 else if k = 1 then some p.controlByte else if k = 0 then some p.commandId
      else Memory.read s.pkt k := by
  simp [State.setPacket, packetCells]

@[simp] theorem packet_setPacket (s : State) (p : Packet) : (s.setPacket p).packet = p := by
  simp [State.packet, State.pktByte, setPacket_pkt_read]

@[simp] theorem packet_loadRequest (s : State) (p : Packet) : (s.loadRequest p).packet = p := packet_setPacket s p

theorem setPacket_wf {s : State} (p : Packet) (h : Memory.wf s.pkt = true) : Memory.wf (s.setPacket p).pkt = true :=
  Memory.wf_writeBytes _ h

theorem resetBlock_wf (level : Bool) (s : State) : Memory.wf (resetBlock level s).pkt = true :=
  Memory.wf_writeBytes _ Memory.wf_empty

/-! ### Handlers -/

theorem runHandler_step_eq (body : State → State) (s : State) :
    runHandler .step body s = { body { s with ie := false, stepPending := false } with ie := true } := rfl

theorem runHandler_stop_eq (body : State → State) (s : State) :
    runHandler .stop body s = { body { s with ie := false, stopPending := false } with ie := true } := rfl

/-! ### The codes of the enums (R15) -/

theorem Direction.toByte_eq (e : EnumCodes) (d : Direction) :
    d.toByte e = if d = .positive then e.directionPositive else e.directionNegative := by cases d <;> rfl

theorem Mode.toByte_eq (e : EnumCodes) (m : Mode) :
    m.toByte e = if m = .velocity then e.modeVelocity else e.modePosition := by cases m <;> rfl

theorem RunStatus.toByte_eq (e : EnumCodes) (r : RunStatus) :
    r.toByte e = if r = .stopped then e.runStopped else e.runRunning := by cases r <;> rfl

theorem Switch.enableToByte_eq (e : EnumCodes) (x : Switch) :
    x.enableToByte e = if x = .enabled then e.enableEnabled else e.enableDisabled := by cases x <;> rfl

theorem Switch.interlockToByte_eq (e : EnumCodes) (x : Switch) :
    x.interlockToByte e = if x = .enabled then e.interlockEnabled else e.interlockDisabled := by cases x <;> rfl

/-! ### The foreground, phase by phase (R131) -/

@[simp] theorem packet_afterNext (s : State) : s.afterNext.packet = s.packet := rfl

theorem foreground_exec {s : State} (h : s.pc = .exec) : foreground s = runBuffer s := by simp [foreground, h]

theorem foreground_snap {s : State} (h : s.pc = .snap) : foreground s = .next (snapTransaction s) := by
  simp [foreground, h]

theorem foreground_apply {s : State} (h : s.pc = .apply) : foreground s = .next (applyTransaction s) := by
  simp [foreground, h]

theorem foreground_resetAct {s : State} (h : s.pc = .resetAct) : foreground s = .next (resetAction s) := by
  simp [foreground, h]

theorem foreground_bootAct {s : State} (h : s.pc = .bootAct) : foreground s = .next (bootAction s) := by
  simp [foreground, h]

theorem runBuffer_command {s : State} {i : Instr} (h : decode s.packet = .command i) : runBuffer s = exec i s := by
  simp [runBuffer, h]

theorem runBuffer_unknown {s : State} {id : Byte} (h : decode s.packet = .unknown id) :
    runBuffer s = .next (s.setPc .resp) := by
  simp [runBuffer, h, execUnknown, execTransaction]

/-! ### Each transaction as one update of the state -/

theorem acceptRequest_eq (p : Packet) (s : State) :
    acceptRequest p s = { s with pkt := Memory.writeBytes s.pkt (packetCells p), pc := .exec } := rfl

theorem handOver_eq (s : State) :
    handOver s = { s with history := s.history ++ [.response s.packet], pc := phaseAfterResp (s.pktByte 0) } := rfl

theorem snapTransaction_eq (s : State) : snapTransaction s = { s with latches := modeTargets s, pc := .apply } := rfl

theorem applyTargets_eq (t : Latches) (s : State) :
    applyTargets t s = { s with
      direction := t.tgtDirection
      velocity := t.tgtVelocity
      timerTop := if 0 < t.tgtVelocity.toNat then configurePulseRate s.cfg t.tgtVelocity.toNat else s.timerTop
      outputEnabled := t.tgtOutput
      trigger := t.tgtTrigger.apply s.trigger } := rfl

theorem applyTransaction_eq (s : State) :
    applyTransaction s = { s with
      pc := .resp
      direction := s.latches.tgtDirection
      velocity := s.latches.tgtVelocity
      timerTop := if 0 < s.latches.tgtVelocity.toNat then configurePulseRate s.cfg s.latches.tgtVelocity.toNat
        else s.timerTop
      outputEnabled := s.latches.tgtOutput
      trigger := s.latches.tgtTrigger.apply s.trigger } := rfl

theorem tick_eq (s : State) :
    tick s = { s with
      stepPending := true
      history := if s.outputEnabled = true then s.history ++ [.stepPulse s.direction] else s.history } := by
  simp only [tick]
  split <;> rfl

/-! ### A step and a run -/

theorem step_eq_perform (s : State) : step s = perform s.nextEvent s.afterNext := rfl

theorem perform_of_running {e : Event} {s : State} (h : s.halted = false) : perform e s = performActive e s := by
  simp [perform, h]

/-- A step of a block that is not halted is what its next event does. -/
theorem step_of_running {s : State} (h : s.halted = false) : step s = performActive s.nextEvent s.afterNext :=
  perform_of_running h

theorem step_foreground {s : State} {p : Phase} (h : RunsPhase s p) : step s = foreground s.afterNext := by
  rw [step_of_running h.2.1, h.1]
  rfl

/-- One step of a run, of any machine. -/
theorem run_succ_of (M : Host.Core) {s t : M.State} (k : Nat) (h : M.step s = .next t) :
    M.run (k + 1) s = M.run k t := by
  rw [Host.Core.run, h]

theorem run_succ {s t : State} (k : Nat) (h : step s = .next t) : core.run (k + 1) s = core.run k t :=
  run_succ_of core k h

@[simp] theorem run_zero (s : State) : core.run 0 s = .next s := rfl

/-- A run of `a + b` steps is a run of `a` and then one of `b`, for any machine. -/
theorem run_add_of (M : Host.Core) (a b : Nat) {s t : M.State} (h : M.run a s = .next t) :
    M.run (a + b) s = M.run b t := by
  induction a generalizing s with
  | zero =>
    rw [Host.Core.run] at h
    cases h
    rw [Nat.zero_add]
  | succ a ih =>
    rw [Nat.succ_add]
    rw [Host.Core.run] at h ⊢
    split at h
    · exact ih h
    · cases h
    · cases h

theorem run_add (a b : Nat) {s t : State} (h : core.run a s = .next t) : core.run (a + b) s = core.run b t :=
  run_add_of core a b h

/-- The next event when the agenda lists one. -/
theorem nextEvent_of_agenda {s : State} {e : Event} {rest : List Event} (h : s.agenda = e :: rest) :
    s.nextEvent = e := by
  simp [State.nextEvent, h]

theorem afterNext_of_agenda {s : State} {e : Event} {rest : List Event} (h : s.agenda = e :: rest) :
    s.afterNext = { s with agenda := rest } := by
  simp [State.afterNext, h]

end Sys2Proof.Machine
end

