-- ==== Sys2Proof/Laws/Commands.lean ====
section
/-! SUPPORT. What the operand forms and the register writes of the commands do (43_cmd_query.md to 45_cmd_system.md),
each as one equation. -/

namespace Sys2Proof.Machine

theorem readEnum_getD {α : Type} (b code0 code1 : Byte) (value0 value1 old : α) :
    (readEnum b code0 value0 code1 value1).getD old = if b = code0 then value0 else if b = code1 then value1 else old := by
  simp only [readEnum]
  split_ifs <;> rfl

/-- R175: the clamp is the minimum, never narrowed. -/
theorem clampVelocity_toNat (p : Params) (v : Half) : (clampVelocity p v).toNat = min v.toNat (maxVelocity p) := by
  rw [clampVelocity, BitVec.toNat_ofNat]
  have := v.isLt
  exact Nat.mod_eq_of_lt (by omega)

/-- R186, R188: bit by bit. -/
theorem getLsbD_driveOutput_high (i : Byte) (dio : BitVec 8) (k : Nat) (hk : k < 8) :
    (driveOutput true i dio).getLsbD k = if i.toNat = k then true else dio.getLsbD k := by
  simp only [driveOutput]
  split_ifs <;> first | omega | (simp <;> grind)

/-- R187, R188: bit by bit. -/
theorem getLsbD_driveOutput_low (i : Byte) (dio : BitVec 8) (k : Nat) (hk : k < 8) :
    (driveOutput false i dio).getLsbD k = if i.toNat = k then false else dio.getLsbD k := by
  simp only [driveOutput]
  split_ifs <;> first | omega | (simp <;> grind)

theorem interlocked_iff (s : State) :
    s.interlocked = true ↔ s.stopInterlockEnabled = .enabled ∧ s.stopLevel = s.cfg.stopActiveLevel := by
  simp [State.interlocked, State.asserted]

/-- R172. -/
theorem writeRunStatus_eq (b : Byte) (s : State) :
    writeRunStatus b s = { s with
      runStatus := if b = s.cfg.enc.runStopped then .stopped
        else if b = s.cfg.enc.runRunning then
          (if s.stopInterlockEnabled = .enabled ∧ s.stopLevel = s.cfg.stopActiveLevel then s.runStatus else .running)
        else s.runStatus } := by
  simp only [writeRunStatus, RunStatus.ofByte, readEnum, interlocked_iff]
  split_ifs <;> rfl

/-- R174. -/
theorem writeInterlock_eq (b : Byte) (s : State) :
    writeInterlock b s = { s with
      stopInterlockEnabled := if b = s.cfg.enc.interlockDisabled then .disabled
        else if b = s.cfg.enc.interlockEnabled then
          (if s.stopLevel = s.cfg.stopActiveLevel then s.stopInterlockEnabled else .enabled)
        else s.stopInterlockEnabled
      stopPending := if b = s.cfg.enc.interlockDisabled then false else s.stopPending } := by
  simp only [writeInterlock, Switch.interlockOfByte, readEnum, State.asserted, beq_iff_eq]
  split_ifs <;> rfl

theorem writeDirSetpoint_eq (b : Byte) (s : State) :
    writeDirSetpoint b s = { s with
      dirSetpoint := if b = s.cfg.enc.directionPositive then .positive
        else if b = s.cfg.enc.directionNegative then .negative else s.dirSetpoint } := by
  simp only [writeDirSetpoint, Direction.ofByte, readEnum_getD]

theorem writeMode_eq (b : Byte) (s : State) :
    writeMode b s = { s with
      mode := if b = s.cfg.enc.modeVelocity then .velocity
        else if b = s.cfg.enc.modePosition then .position else s.mode } := by
  simp only [writeMode, Mode.ofByte, readEnum_getD]

theorem writeEnable_eq (b : Byte) (s : State) :
    writeEnable b s = { s with
      enable := if b = s.cfg.enc.enableEnabled then .enabled
        else if b = s.cfg.enc.enableDisabled then .disabled else s.enable } := by
  simp only [writeEnable, Switch.enableOfByte, readEnum_getD]

end Sys2Proof.Machine
end

