-- ==== Sys2Proof/Laws/Encoding.lean ====
section
/-! SUPPORT. The byte order of a packet, both ways (20_memory.md R47), and the control byte's round trip. -/

namespace Sys2Proof

theorem getLsbD_byteOf {n : Nat} (v : BitVec n) (k i : Nat) :
    (byteOf v k).getLsbD i = (decide (i < 8) && v.getLsbD (8 * k + i)) := by
  simp [byteOf, BitVec.getLsbD_extractLsb']

/-! ### A value from its own bytes -/

@[simp] theorem Half.ofBytes_byteOf (v : Half) : Half.ofBytes (byteOf v 0) (byteOf v 1) = v := by
  apply BitVec.eq_of_getLsbD_eq
  intro i hi
  simp only [Half.ofBytes, BitVec.getLsbD_append, getLsbD_byteOf]
  split_ifs <;> simp <;> grind

@[simp] theorem bits24OfBytes_byteOf (v : BitVec 24) :
    bits24OfBytes (byteOf v 0) (byteOf v 1) (byteOf v 2) = v := by
  apply BitVec.eq_of_getLsbD_eq
  intro i hi
  simp only [bits24OfBytes, BitVec.getLsbD_append, getLsbD_byteOf]
  split_ifs <;> simp <;> grind

@[simp] theorem Word.ofBytes_byteOf (v : Word) :
    Word.ofBytes (byteOf v 0) (byteOf v 1) (byteOf v 2) (byteOf v 3) = v := by
  apply BitVec.eq_of_getLsbD_eq
  intro i hi
  simp only [Word.ofBytes, BitVec.getLsbD_append, getLsbD_byteOf]
  split_ifs <;> simp <;> grind

/-! ### The bytes of a value made of bytes -/

theorem byteOf_self (b : Byte) : byteOf b 0 = b := by
  apply BitVec.eq_of_getLsbD_eq
  intro i hi
  simp only [getLsbD_byteOf]
  grind

theorem byteOf_append_low {n : Nat} (upper : BitVec n) (lower : Byte) : byteOf (upper ++ lower) 0 = lower := by
  apply BitVec.eq_of_getLsbD_eq
  intro i hi
  simp only [getLsbD_byteOf, BitVec.getLsbD_append]
  grind

theorem byteOf_append_succ {n : Nat} (upper : BitVec n) (lower : Byte) (k : Nat) :
    byteOf (upper ++ lower) (k + 1) = byteOf upper k := by
  apply BitVec.eq_of_getLsbD_eq
  intro i hi
  simp only [getLsbD_byteOf, BitVec.getLsbD_append]
  grind

@[simp] theorem byteOf_half_zero (b0 b1 : Byte) : byteOf (Half.ofBytes b0 b1) 0 = b0 := byteOf_append_low b1 b0

@[simp] theorem byteOf_half_one (b0 b1 : Byte) : byteOf (Half.ofBytes b0 b1) 1 = b1 :=
  (byteOf_append_succ b1 b0 0).trans (byteOf_self b1)

@[simp] theorem byteOf_bits24_zero (b0 b1 b2 : Byte) : byteOf (bits24OfBytes b0 b1 b2) 0 = b0 :=
  byteOf_append_low (b2 ++ b1) b0

@[simp] theorem byteOf_bits24_one (b0 b1 b2 : Byte) : byteOf (bits24OfBytes b0 b1 b2) 1 = b1 :=
  (byteOf_append_succ (b2 ++ b1) b0 0).trans (byteOf_append_low b2 b1)

@[simp] theorem byteOf_bits24_two (b0 b1 b2 : Byte) : byteOf (bits24OfBytes b0 b1 b2) 2 = b2 :=
  (byteOf_append_succ (b2 ++ b1) b0 1).trans ((byteOf_append_succ b2 b1 0).trans (byteOf_self b2))

@[simp] theorem byteOf_word_zero (b0 b1 b2 b3 : Byte) : byteOf (Word.ofBytes b0 b1 b2 b3) 0 = b0 :=
  byteOf_append_low (b3 ++ b2 ++ b1) b0

@[simp] theorem byteOf_word_one (b0 b1 b2 b3 : Byte) : byteOf (Word.ofBytes b0 b1 b2 b3) 1 = b1 :=
  (byteOf_append_succ (b3 ++ b2 ++ b1) b0 0).trans (byteOf_append_low (b3 ++ b2) b1)

@[simp] theorem byteOf_word_two (b0 b1 b2 b3 : Byte) : byteOf (Word.ofBytes b0 b1 b2 b3) 2 = b2 :=
  (byteOf_append_succ (b3 ++ b2 ++ b1) b0 1).trans
    ((byteOf_append_succ (b3 ++ b2) b1 0).trans (byteOf_append_low b3 b2))

@[simp] theorem byteOf_word_three (b0 b1 b2 b3 : Byte) : byteOf (Word.ofBytes b0 b1 b2 b3) 3 = b3 :=
  (byteOf_append_succ (b3 ++ b2 ++ b1) b0 2).trans
    ((byteOf_append_succ (b3 ++ b2) b1 1).trans ((byteOf_append_succ b3 b2 0).trans (byteOf_self b3)))

/-! ### The control byte -/

theorem ControlByte.ofByte_toByte {c : ControlByte} (h : c.wf = true) : ControlByte.ofByte c.toByte = c := by
  cases c <;> simp_all [ControlByte.ofByte, ControlByte.toByte, ControlByte.wf]

@[simp] theorem ControlByte.toByte_ofByte (b : Byte) : (ControlByte.ofByte b).toByte = b := by
  simp only [ControlByte.ofByte]
  split_ifs <;> simp [ControlByte.toByte, *]

theorem ControlByte.ofByte_wf (b : Byte) : (ControlByte.ofByte b).wf = true := by
  simp only [ControlByte.ofByte]
  split_ifs <;> simp [ControlByte.wf, *]

/-- R74, R83: a well-formed control byte is APPLY exactly when its value is 200. -/
theorem ControlByte.toByte_eq_200 {c : ControlByte} (h : c.wf = true) : c.toByte = 200#8 ↔ c = .apply := by
  cases c <;> simp_all [ControlByte.toByte, ControlByte.wf]

end Sys2Proof
end

