-- ==== Sys2Proof/Laws/Exec.lean ====
section
/-! SUPPORT. The EXEC transaction of each command as one update of the state: the lemmas by which a proof about all
commands meets each of them. The codes of R15 and the next phase are kept as the functions the model uses. -/

namespace Sys2Proof.Machine

/-! ### The answer -/

/-- `s` with a u8 response in the buffer and the phase `next`. -/
abbrev answerU8 (s : State) (v : Byte) (next : Phase) : State := (s.respondU8 v).setPc next

/-- `s` with a u16 response in the buffer and the phase `next`. -/
abbrev answerU16 (s : State) (v : Half) (next : Phase) : State := (s.respondU16 v).setPc next

/-- `s` with an i32 response in the buffer and the phase `next`. -/
abbrev answerI32 (s : State) (v : Word) (next : Phase) : State := (s.respondI32 v).setPc next

/-! ### Queries -/

theorem exec_getPos (ctl : ControlByte) (payload : Word) (s : State) :
    exec (.getPos ctl payload) s = .next (answerI32 s s.position (phaseAfterExec ctl)) := rfl

theorem exec_getPosSetpt (ctl : ControlByte) (payload : Word) (s : State) :
    exec (.getPosSetpt ctl payload) s = .next (answerI32 s s.posSetpoint (phaseAfterExec ctl)) := rfl

theorem exec_getPosErr (ctl : ControlByte) (payload : Word) (s : State) :
    exec (.getPosErr ctl payload) s = .next (answerI32 s (s.posSetpoint - s.position) (phaseAfterExec ctl)) := rfl

theorem exec_getVelSetpt (ctl : ControlByte) (payload : Word) (s : State) :
    exec (.getVelSetpt ctl payload) s = .next (answerU16 s s.velSetpoint (phaseAfterExec ctl)) := rfl

theorem exec_getVel (ctl : ControlByte) (payload : Word) (s : State) :
    exec (.getVel ctl payload) s = .next (answerU16 s s.velocity (phaseAfterExec ctl)) := rfl

theorem exec_getPosVel (ctl : ControlByte) (payload : Word) (s : State) :
    exec (.getPosVel ctl payload) s = .next (answerU16 s s.travelVelocity (phaseAfterExec ctl)) := rfl

theorem exec_getMaxVel (ctl : ControlByte) (payload : Word) (s : State) :
    exec (.getMaxVel ctl payload) s = .next (answerU16 s (BitVec.ofNat 16 (maxVelocity s.cfg)) (phaseAfterExec ctl)) := rfl

theorem exec_getMinVel (ctl : ControlByte) (payload : Word) (s : State) :
    exec (.getMinVel ctl payload) s = .next (answerU16 s (BitVec.ofNat 16 (minVelocity s.cfg)) (phaseAfterExec ctl)) := rfl

theorem exec_getDirSetpt (ctl : ControlByte) (payload : Word) (s : State) :
    exec (.getDirSetpt ctl payload) s = .next (answerU8 s (s.dirSetpoint.toByte s.cfg.enc) (phaseAfterExec ctl)) := rfl

theorem exec_getMode (ctl : ControlByte) (payload : Word) (s : State) :
    exec (.getMode ctl payload) s = .next (answerU8 s (s.mode.toByte s.cfg.enc) (phaseAfterExec ctl)) := rfl

theorem exec_getStatus (ctl : ControlByte) (payload : Word) (s : State) :
    exec (.getStatus ctl payload) s = .next (answerU8 s (s.runStatus.toByte s.cfg.enc) (phaseAfterExec ctl)) := rfl

theorem exec_getDir (ctl : ControlByte) (payload : Word) (s : State) :
    exec (.getDir ctl payload) s = .next (answerU8 s (s.direction.toByte s.cfg.enc) (phaseAfterExec ctl)) := rfl

theorem exec_getEnable (ctl : ControlByte) (payload : Word) (s : State) :
    exec (.getEnable ctl payload) s = .next (answerU8 s (s.enable.enableToByte s.cfg.enc) (phaseAfterExec ctl)) := rfl

theorem exec_getExtInt (ctl : ControlByte) (payload : Word) (s : State) :
    exec (.getExtInt ctl payload) s = .next (answerU8 s (s.stopInterlockEnabled.interlockToByte s.cfg.enc) (phaseAfterExec ctl)) := rfl

/-! ### Setters -/

theorem exec_setPosSetpt (ctl : ControlByte) (operand : Word) (s : State) :
    exec (.setPosSetpt ctl operand) s = .next (answerI32 (writePosSetpoint operand s)
      operand (phaseAfterExec ctl)) := rfl

theorem exec_setVelSetpt (ctl : ControlByte) (operand : Half) (rest : Half) (s : State) :
    exec (.setVelSetpt ctl operand rest) s = .next (answerU16 (writeVelSetpoint operand s)
      (clampVelocity s.cfg operand) (phaseAfterExec ctl)) := rfl

theorem exec_setPosVel (ctl : ControlByte) (operand : Half) (rest : Half) (s : State) :
    exec (.setPosVel ctl operand rest) s = .next (answerU16 (writeTravelVelocity operand s)
      (clampVelocity s.cfg operand) (phaseAfterExec ctl)) := rfl

theorem exec_setZeroPos (ctl : ControlByte) (operand : Word) (s : State) :
    exec (.setZeroPos ctl operand) s = .next (answerI32 (shiftZero operand s)
      (s.position - operand) (phaseAfterExec ctl)) := rfl

theorem exec_setDirSetpt (ctl : ControlByte) (operand : Byte) (rest : BitVec 24) (s : State) :
    exec (.setDirSetpt ctl operand rest) s = .next (answerU8 (writeDirSetpoint operand s)
      ((writeDirSetpoint operand s).dirSetpoint.toByte s.cfg.enc) (phaseAfterExec ctl)) := rfl

theorem exec_setMode (ctl : ControlByte) (operand : Byte) (rest : BitVec 24) (s : State) :
    exec (.setMode ctl operand rest) s = .next (answerU8 (writeMode operand s)
      ((writeMode operand s).mode.toByte s.cfg.enc) (phaseAfterExec ctl)) := rfl

theorem exec_setStatus (ctl : ControlByte) (operand : Byte) (rest : BitVec 24) (s : State) :
    exec (.setStatus ctl operand rest) s = .next (answerU8 (writeRunStatus operand s)
      ((writeRunStatus operand s).runStatus.toByte s.cfg.enc) (phaseAfterExec ctl)) := by
  simp only [exec, execSetStatus, execTransaction, critical_eq, writeRunStatus_eq]
  rfl

theorem exec_setEnable (ctl : ControlByte) (operand : Byte) (rest : BitVec 24) (s : State) :
    exec (.setEnable ctl operand rest) s = .next (answerU8 (writeEnable operand s)
      ((writeEnable operand s).enable.enableToByte s.cfg.enc) (phaseAfterExec ctl)) := rfl

theorem exec_setExtInt (ctl : ControlByte) (operand : Byte) (rest : BitVec 24) (s : State) :
    exec (.setExtInt ctl operand rest) s = .next (answerU8 (writeInterlock operand s)
      ((writeInterlock operand s).stopInterlockEnabled.interlockToByte s.cfg.enc) (phaseAfterExec ctl)) := by
  simp only [exec, execSetExtInt, execTransaction, critical_eq, writeInterlock_eq]
  rfl

theorem exec_setDioHi (ctl : ControlByte) (operand : Byte) (rest : BitVec 24) (s : State) :
    exec (.setDioHi ctl operand rest) s = .next (answerU8 { s with dio := driveOutput true operand s.dio }
      operand (phaseAfterExec ctl)) := rfl

theorem exec_setDioLo (ctl : ControlByte) (operand : Byte) (rest : BitVec 24) (s : State) :
    exec (.setDioLo ctl operand rest) s = .next (answerU8 { s with dio := driveOutput false operand s.dio }
      operand (phaseAfterExec ctl)) := rfl

/-! ### Restart commands and TEST -/

theorem exec_deviceReset (ctl : ControlByte) (payload : Word) (s : State) :
    exec (.deviceReset ctl payload) s = .next (s.setPc .resp) := rfl

theorem exec_bootloaderMode (ctl : ControlByte) (payload : Word) (s : State) :
    exec (.bootloaderMode ctl payload) s = .next (s.setPc .resp) := rfl

theorem exec_test (ctl : ControlByte) (payload : Word) (s : State) :
    exec (.test ctl payload) s = .next ((respondTest s).setPc (phaseAfterExec ctl)) := by
  cases h : s.cfg.test <;> simp only [exec, execTest, execTransaction, critical_eq, respondTest, h] <;> rfl

/-! ### Every command at once -/

/-- The registers after a command's action, the answer aside (R133, R176). -/
def written (i : Instr) (s : State) : State :=
  match i with
  | .getPos _ _ => s
  | .setPosSetpt _ v => writePosSetpoint v s
  | .getPosSetpt _ _ => s
  | .setVelSetpt _ v _ => writeVelSetpoint v s
  | .getVelSetpt _ _ => s
  | .getVel _ _ => s
  | .setDirSetpt _ b _ => writeDirSetpoint b s
  | .getDirSetpt _ _ => s
  | .setMode _ b _ => writeMode b s
  | .getMode _ _ => s
  | .setPosVel _ v _ => writeTravelVelocity v s
  | .getPosVel _ _ => s
  | .getPosErr _ _ => s
  | .setZeroPos _ v => shiftZero v s
  | .getMaxVel _ _ => s
  | .getMinVel _ _ => s
  | .getStatus _ _ => s
  | .setStatus _ b _ => writeRunStatus b s
  | .getDir _ _ => s
  | .setEnable _ b _ => writeEnable b s
  | .getEnable _ _ => s
  | .setDioHi _ i _ => { s with dio := driveOutput true i s.dio }
  | .setDioLo _ i _ => { s with dio := driveOutput false i s.dio }
  | .getExtInt _ _ => s
  | .setExtInt _ b _ => writeInterlock b s
  | .deviceReset _ _ => s
  | .bootloaderMode _ _ => s
  | .test _ _ => s

/-- What a command's EXEC leaves: the registers it writes, and beside them only `pkt`, `pc` and the count of draws. -/
structure ExecLeaves (i : Instr) (s t : State) : Prop where
  registers : OnlyAnswerDiffers (written i s) t
  phase : t.pc = if i.isRestart then .resp else phaseAfterExec i.ctl
  id : t.pktByte 0 = s.pktByte 0
  buffer : Memory.wf s.pkt = true → Memory.wf t.pkt = true

theorem answerU8_leaves {i : Instr} {s w : State} {v : Byte} (hw : written i s = w) (hp : w.pkt = s.pkt)
    (hr : i.isRestart = false) : ExecLeaves i s (answerU8 w v (phaseAfterExec i.ctl)) := by
  subst hw
  refine ⟨rfl, by simp [hr], ?_, fun h => respondU8_wf v (hp ▸ h)⟩
  simp [State.pktByte, respondU8_pkt_read, hp]

theorem answerU16_leaves {i : Instr} {s w : State} {v : Half} (hw : written i s = w) (hp : w.pkt = s.pkt)
    (hr : i.isRestart = false) : ExecLeaves i s (answerU16 w v (phaseAfterExec i.ctl)) := by
  subst hw
  refine ⟨rfl, by simp [hr], ?_, fun h => respondU16_wf v (hp ▸ h)⟩
  simp [State.pktByte, respondU16_pkt_read, hp]

theorem answerI32_leaves {i : Instr} {s w : State} {v : Word} (hw : written i s = w) (hp : w.pkt = s.pkt)
    (hr : i.isRestart = false) : ExecLeaves i s (answerI32 w v (phaseAfterExec i.ctl)) := by
  subst hw
  refine ⟨rfl, by simp [hr], ?_, fun h => respondI32_wf v (hp ▸ h)⟩
  simp [State.pktByte, respondI32_pkt_read, hp]

/-- Every command answers a next state, and this is all it does. -/
theorem exec_leaves (i : Instr) (s : State) : ∃ t, exec i s = .next t ∧ ExecLeaves i s t := by
  cases i with
  | getPos ctl payload => exact ⟨_, exec_getPos ctl payload s, answerI32_leaves rfl rfl rfl⟩
  | setPosSetpt ctl operand => exact ⟨_, exec_setPosSetpt ctl operand s, answerI32_leaves rfl rfl rfl⟩
  | getPosSetpt ctl payload => exact ⟨_, exec_getPosSetpt ctl payload s, answerI32_leaves rfl rfl rfl⟩
  | setVelSetpt ctl operand rest => exact ⟨_, exec_setVelSetpt ctl operand rest s, answerU16_leaves rfl rfl rfl⟩
  | getVelSetpt ctl payload => exact ⟨_, exec_getVelSetpt ctl payload s, answerU16_leaves rfl rfl rfl⟩
  | getVel ctl payload => exact ⟨_, exec_getVel ctl payload s, answerU16_leaves rfl rfl rfl⟩
  | setDirSetpt ctl operand rest => exact ⟨_, exec_setDirSetpt ctl operand rest s, answerU8_leaves rfl rfl rfl⟩
  | getDirSetpt ctl payload => exact ⟨_, exec_getDirSetpt ctl payload s, answerU8_leaves rfl rfl rfl⟩
  | setMode ctl operand rest => exact ⟨_, exec_setMode ctl operand rest s, answerU8_leaves rfl rfl rfl⟩
  | getMode ctl payload => exact ⟨_, exec_getMode ctl payload s, answerU8_leaves rfl rfl rfl⟩
  | setPosVel ctl operand rest => exact ⟨_, exec_setPosVel ctl operand rest s, answerU16_leaves rfl rfl rfl⟩
  | getPosVel ctl payload => exact ⟨_, exec_getPosVel ctl payload s, answerU16_leaves rfl rfl rfl⟩
  | getPosErr ctl payload => exact ⟨_, exec_getPosErr ctl payload s, answerI32_leaves rfl rfl rfl⟩
  | setZeroPos ctl operand => exact ⟨_, exec_setZeroPos ctl operand s, answerI32_leaves rfl rfl rfl⟩
  | getMaxVel ctl payload => exact ⟨_, exec_getMaxVel ctl payload s, answerU16_leaves rfl rfl rfl⟩
  | getMinVel ctl payload => exact ⟨_, exec_getMinVel ctl payload s, answerU16_leaves rfl rfl rfl⟩
  | getStatus ctl payload => exact ⟨_, exec_getStatus ctl payload s, answerU8_leaves rfl rfl rfl⟩
  | setStatus ctl operand rest => exact ⟨_, exec_setStatus ctl operand rest s, answerU8_leaves rfl (by rw [writeRunStatus_eq]) rfl⟩
  | getDir ctl payload => exact ⟨_, exec_getDir ctl payload s, answerU8_leaves rfl rfl rfl⟩
  | setEnable ctl operand rest => exact ⟨_, exec_setEnable ctl operand rest s, answerU8_leaves rfl rfl rfl⟩
  | getEnable ctl payload => exact ⟨_, exec_getEnable ctl payload s, answerU8_leaves rfl rfl rfl⟩
  | setDioHi ctl operand rest => exact ⟨_, exec_setDioHi ctl operand rest s, answerU8_leaves rfl rfl rfl⟩
  | setDioLo ctl operand rest => exact ⟨_, exec_setDioLo ctl operand rest s, answerU8_leaves rfl rfl rfl⟩
  | getExtInt ctl payload => exact ⟨_, exec_getExtInt ctl payload s, answerU8_leaves rfl rfl rfl⟩
  | setExtInt ctl operand rest => exact ⟨_, exec_setExtInt ctl operand rest s, answerU8_leaves rfl (by rw [writeInterlock_eq]) rfl⟩
  | deviceReset ctl payload => exact ⟨_, exec_deviceReset ctl payload s, ⟨rfl, rfl, rfl, id⟩⟩
  | bootloaderMode ctl payload => exact ⟨_, exec_bootloaderMode ctl payload s, ⟨rfl, rfl, rfl, id⟩⟩
  | test ctl payload =>
    refine ⟨_, exec_test ctl payload s, ?_⟩
    rw [respondTest]
    split
    · exact answerU8_leaves rfl rfl rfl
    · exact answerU16_leaves rfl rfl rfl
    · exact answerI32_leaves rfl rfl rfl

theorem exec_leaves_of_next {i : Instr} {s t : State} (h : exec i s = .next t) : ExecLeaves i s t := by
  obtain ⟨u, hu, hl⟩ := exec_leaves i s
  rw [hu] at h
  cases h
  exact hl

/-- The registers that no command's action writes (R176, R160). -/
structure CommandKeeps (s t : State) : Prop where
  direction : t.direction = s.direction
  velocity : t.velocity = s.velocity
  timerTop : t.timerTop = s.timerTop
  outputEnabled : t.outputEnabled = s.outputEnabled
  trigger : t.trigger = s.trigger
  latches : t.latches = s.latches
  halted : t.halted = s.halted
  ie : t.ie = s.ie
  stepPending : t.stepPending = s.stepPending
  stopLevel : t.stopLevel = s.stopLevel
  timerCount : t.timerCount = s.timerCount
  prescaleCount : t.prescaleCount = s.prescaleCount
  history : t.history = s.history
  cfg : t.cfg = s.cfg
  agenda : t.agenda = s.agenda

theorem CommandKeeps.refl (s : State) : CommandKeeps s s := by constructor <;> rfl

theorem written_keeps (i : Instr) (s : State) : CommandKeeps s (written i s) := by
  cases i <;> simp only [written, writeRunStatus_eq, writeInterlock_eq] <;>
    first | exact CommandKeeps.refl s | (constructor <;> rfl)

theorem OnlyAnswerDiffers.keeps {s t : State} (h : OnlyAnswerDiffers s t) : CommandKeeps s t := by
  rw [OnlyAnswerDiffers] at h
  rw [h]
  constructor <;> rfl

theorem CommandKeeps.trans {s t u : State} (h : CommandKeeps s t) (g : CommandKeeps t u) : CommandKeeps s u :=
  ⟨g.1.trans h.1, g.2.trans h.2, g.3.trans h.3, g.4.trans h.4, g.5.trans h.5, g.6.trans h.6, g.7.trans h.7,
    g.8.trans h.8, g.9.trans h.9, g.10.trans h.10, g.11.trans h.11, g.12.trans h.12, g.13.trans h.13,
    g.14.trans h.14, g.15.trans h.15⟩

theorem exec_keeps {i : Instr} {s t : State} (h : exec i s = .next t) : CommandKeeps s t :=
  (written_keeps i s).trans (exec_leaves_of_next h).registers.keeps

theorem written_mode (i : Instr) (s : State) :
    (written i s).mode = s.mode ∨ ∃ c b r, i = .setMode c b r := by
  cases i with
  | setMode c v r => exact .inr ⟨_, _, _, rfl⟩
  | setStatus c b r => exact .inl (by simp only [written, writeRunStatus_eq])
  | setExtInt c b r => exact .inl (by simp only [written, writeInterlock_eq])
  | _ => exact .inl rfl

theorem written_position (i : Instr) (s : State) :
    (written i s).position = s.position ∨ ∃ c v, i = .setZeroPos c v := by
  cases i with
  | setZeroPos c v => exact .inr ⟨_, _, rfl⟩
  | setStatus c b r => exact .inl (by simp only [written, writeRunStatus_eq])
  | setExtInt c b r => exact .inl (by simp only [written, writeInterlock_eq])
  | _ => exact .inl rfl

theorem written_posSetpoint (i : Instr) (s : State) :
    (written i s).posSetpoint = s.posSetpoint ∨ ((∃ c v, i = .setPosSetpt c v) ∨ ∃ c v, i = .setZeroPos c v) := by
  cases i with
  | setPosSetpt c v => exact .inr (.inl ⟨_, _, rfl⟩)
  | setZeroPos c v => exact .inr (.inr ⟨_, _, rfl⟩)
  | setStatus c b r => exact .inl (by simp only [written, writeRunStatus_eq])
  | setExtInt c b r => exact .inl (by simp only [written, writeInterlock_eq])
  | _ => exact .inl rfl

theorem written_travelVelocity (i : Instr) (s : State) :
    (written i s).travelVelocity = s.travelVelocity ∨ ∃ c v r, i = .setPosVel c v r := by
  cases i with
  | setPosVel c v r => exact .inr ⟨_, _, _, rfl⟩
  | setStatus c b r => exact .inl (by simp only [written, writeRunStatus_eq])
  | setExtInt c b r => exact .inl (by simp only [written, writeInterlock_eq])
  | _ => exact .inl rfl

theorem written_velSetpoint (i : Instr) (s : State) :
    (written i s).velSetpoint = s.velSetpoint ∨ ∃ c v r, i = .setVelSetpt c v r := by
  cases i with
  | setVelSetpt c v r => exact .inr ⟨_, _, _, rfl⟩
  | setStatus c b r => exact .inl (by simp only [written, writeRunStatus_eq])
  | setExtInt c b r => exact .inl (by simp only [written, writeInterlock_eq])
  | _ => exact .inl rfl

theorem written_dirSetpoint (i : Instr) (s : State) :
    (written i s).dirSetpoint = s.dirSetpoint ∨ ∃ c b r, i = .setDirSetpt c b r := by
  cases i with
  | setDirSetpt c v r => exact .inr ⟨_, _, _, rfl⟩
  | setStatus c b r => exact .inl (by simp only [written, writeRunStatus_eq])
  | setExtInt c b r => exact .inl (by simp only [written, writeInterlock_eq])
  | _ => exact .inl rfl

theorem written_runStatus (i : Instr) (s : State) :
    (written i s).runStatus = s.runStatus ∨ ∃ c b r, i = .setStatus c b r := by
  cases i with
  | setStatus c v r => exact .inr ⟨_, _, _, rfl⟩
  | setExtInt c b r => exact .inl (by simp only [written, writeInterlock_eq])
  | _ => exact .inl rfl

theorem written_enable (i : Instr) (s : State) :
    (written i s).enable = s.enable ∨ ∃ c b r, i = .setEnable c b r := by
  cases i with
  | setEnable c v r => exact .inr ⟨_, _, _, rfl⟩
  | setStatus c b r => exact .inl (by simp only [written, writeRunStatus_eq])
  | setExtInt c b r => exact .inl (by simp only [written, writeInterlock_eq])
  | _ => exact .inl rfl

theorem written_stopInterlockEnabled (i : Instr) (s : State) :
    (written i s).stopInterlockEnabled = s.stopInterlockEnabled ∨ ∃ c b r, i = .setExtInt c b r := by
  cases i with
  | setExtInt c v r => exact .inr ⟨_, _, _, rfl⟩
  | setStatus c b r => exact .inl (by simp only [written, writeRunStatus_eq])
  | _ => exact .inl rfl

theorem written_dio (i : Instr) (s : State) :
    (written i s).dio = s.dio ∨ ((∃ c b r, i = .setDioHi c b r) ∨ ∃ c b r, i = .setDioLo c b r) := by
  cases i with
  | setDioHi c v r => exact .inr (.inl ⟨_, _, _, rfl⟩)
  | setDioLo c v r => exact .inr (.inr ⟨_, _, _, rfl⟩)
  | setStatus c b r => exact .inl (by simp only [written, writeRunStatus_eq])
  | setExtInt c b r => exact .inl (by simp only [written, writeInterlock_eq])
  | _ => exact .inl rfl

theorem written_stopPending (i : Instr) (s : State) :
    (written i s).stopPending = s.stopPending ∨ ((∃ c b r, i = .setExtInt c b r) ∧ (written i s).stopPending = false) := by
  cases i with
  | setStatus c b r => exact .inl (by simp only [written, writeRunStatus_eq])
  | setExtInt c b r =>
    by_cases hb : b = s.cfg.enc.interlockDisabled
    · exact .inr ⟨⟨_, _, _, rfl⟩, by simp only [written, writeInterlock_eq, hb, if_true]⟩
    · exact .inl (by simp only [written, writeInterlock_eq, hb, if_false])
  | _ => exact .inl rfl

/-- What the foreground's own transaction can be (R131): nothing while it waits on the transport, the EXEC of the
command or of an unknown id, the snapshot, the apply, or one of the two restart actions. -/
theorem foreground_cases {s t : State} (e : foreground s = .next t) :
    (t = s ∧ (s.pc = .idle ∨ s.pc = .resp)) ∨ (s.pc = .exec ∧ ∃ i, decode s.packet = .command i ∧ exec i s = .next t) ∨
      (s.pc = .exec ∧ (∃ id, decode s.packet = .unknown id) ∧ t = s.setPc .resp) ∨
      (s.pc = .snap ∧ t = snapTransaction s) ∨ (s.pc = .apply ∧ t = applyTransaction s) ∨
      (s.pc = .resetAct ∧ t = resetAction s) ∨ (s.pc = .bootAct ∧ t = bootAction s) := by
  cases hp : s.pc with
  | idle =>
    simp only [foreground, hp] at e
    cases e
    simp
  | exec =>
    rw [foreground_exec hp] at e
    cases hd : decode s.packet with
    | command i =>
      rw [runBuffer_command hd] at e
      exact .inr (.inl ⟨rfl, i, rfl, e⟩)
    | unknown id =>
      rw [runBuffer_unknown hd] at e
      cases e
      simp
  | snap =>
    rw [foreground_snap hp] at e
    cases e
    simp
  | apply =>
    rw [foreground_apply hp] at e
    cases e
    simp
  | resp =>
    simp only [foreground, hp] at e
    cases e
    simp
  | resetAct =>
    rw [foreground_resetAct hp] at e
    cases e
    simp
  | bootAct =>
    rw [foreground_bootAct hp] at e
    cases e
    simp

end Sys2Proof.Machine
end

