-- ==== Sys2Proof/Laws/Handlers.lean ====
section
/-! SUPPORT. The events and the two handlers, each as one update of the state, and the step an agenda's first event
takes. -/

namespace Sys2Proof.Machine

/-! ### The handlers -/

theorem countOne_eq (d : Direction) (position : Word) :
    countOne d position = if d = .positive then position + 1 else position - 1 := by cases d <;> rfl

/-- R207. -/
theorem stepHandler_eq (s : State) :
    stepHandler s =
      if s.runStatus = .running ∧ 0 < s.velocity.toNat then
        if s.mode = .position ∧ countOne s.direction s.position = s.posSetpoint then
          { s with
            ie := true, stepPending := false, position := countOne s.direction s.position
            velocity := 0, outputEnabled := false }
        else { s with ie := true, stepPending := false, position := countOne s.direction s.position }
      else { s with ie := true, stepPending := false } := by
  simp only [stepHandler, runHandler_step_eq, stepBody, setOutputEnabled]
  split_ifs <;> rfl

theorem zeroTarget_of_position {s : State} (h : s.mode = .position) :
    zeroTarget s = { s with posSetpoint := s.position } := by simp [zeroTarget, h]

theorem zeroTarget_of_velocity {s : State} (h : s.mode = .velocity) : zeroTarget s = { s with velSetpoint := 0 } := by
  simp [zeroTarget, h]

theorem mode_velocity_of_ne {s : State} (h : ¬s.mode = .position) : s.mode = .velocity := by
  cases hm : s.mode with
  | velocity => rfl
  | position => exact absurd hm h

/-- R210, the state after the handler. -/
theorem stopHandler_eq (s : State) :
    stopHandler s =
      if s.stopInterlockEnabled = .enabled then
        if s.mode = .position then
          { s with
            ie := true, stopPending := false, runStatus := .stopped, posSetpoint := s.position, direction := .negative
            velocity := 0, outputEnabled := false }
        else
          { s with
            ie := true, stopPending := false, runStatus := .stopped, velSetpoint := 0, direction := s.dirSetpoint
            velocity := 0, outputEnabled := false, trigger := false }
      else { s with ie := true, stopPending := false } := by
  simp only [stopHandler, runHandler_stop_eq, stopBody]
  split_ifs with h1 h2
  · rw [zeroTarget_of_position (by exact h2)]
    simp [inlineUpdate, applyTargets_eq, h2, modeTargets, positionTargets, positionError, TriggerTarget.apply,
      isPositive]
  · have h3 := mode_velocity_of_ne h2
    rw [zeroTarget_of_velocity (by exact h3)]
    simp [inlineUpdate, applyTargets_eq, h3, modeTargets, velocityTargets, TriggerTarget.apply]
  · rfl

/-- R209. -/
theorem stopLevelChange_eq (level : Bool) (s : State) :
    stopLevelChange level s = { s with
      stopLevel := level
      stopPending := if s.stopLevel ≠ s.cfg.stopActiveLevel ∧ level = s.cfg.stopActiveLevel ∧
        s.stopInterlockEnabled = .enabled then true else s.stopPending } := by
  simp only [stopLevelChange, State.asserted, Bool.and_eq_true, Bool.not_eq_true', beq_eq_false_iff_ne, beq_iff_eq,
    and_assoc, decide_eq_true_eq]
  split_ifs <;> rfl

theorem canTake_step (s : State) :
    s.canTake .step = true ↔ s.ie = true ∧ s.stepPending = true ∧ s.halted = false := by
  simp [State.canTake, State.pending, and_assoc]

theorem canTake_stop (s : State) :
    s.canTake .stop = true ↔ s.ie = true ∧ s.stopPending = true ∧ s.halted = false := by
  simp [State.canTake, State.pending, and_assoc]

theorem tryHandler_step {s : State} (h : s.canTake .step = true) : tryHandler .step s = stepHandler s := by
  simp only [tryHandler, h, if_true]

theorem tryHandler_stop {s : State} (h : s.canTake .stop = true) : tryHandler .stop s = stopHandler s := by
  simp only [tryHandler, h, if_true]

/-! ### The timer of the timed refinement (R256) -/

theorem clockCycle_of_not_last {s : State} (h : s.prescaleCount + 1 < s.cfg.prescaler) :
    clockCycle s = { s with prescaleCount := s.prescaleCount + 1 } := by
  rw [clockCycle, if_neg (by omega)]

theorem clockCycle_of_count {s : State} (h : s.cfg.prescaler ≤ s.prescaleCount + 1) (hc : s.timerCount < s.timerTop) :
    clockCycle s = { s with prescaleCount := 0, timerCount := s.timerCount + 1 } := by
  rw [clockCycle, if_pos h, timerCycle, if_neg (by exact Nat.not_le.2 hc)]

theorem clockCycle_of_tick {s : State} (h : s.cfg.prescaler ≤ s.prescaleCount + 1) (hc : s.timerTop ≤ s.timerCount) :
    clockCycle s = tick { s with prescaleCount := 0, timerCount := 0 } := by
  rw [clockCycle, if_pos h, timerCycle, if_pos (by exact hc)]

/-! ### The step of an agenda's first event -/

theorem step_of_agenda {s : State} {e : Event} {rest : List Event} (ha : s.agenda = e :: rest)
    (hh : s.halted = false) : step s = performActive e { s with agenda := rest } := by
  rw [step_of_running hh, nextEvent_of_agenda ha, afterNext_of_agenda ha]

theorem step_tick {s : State} {rest : List Event} (ha : s.agenda = .tick :: rest) (hh : s.halted = false) :
    step s = .next (tick { s with agenda := rest }) := step_of_agenda ha hh

theorem step_clock {s : State} {rest : List Event} (ha : s.agenda = .clock :: rest) (hh : s.halted = false) :
    step s = .next (clockCycle { s with agenda := rest }) := step_of_agenda ha hh

theorem step_stopLevelChange {s : State} {level : Bool} {rest : List Event}
    (ha : s.agenda = .stopLevelChange level :: rest) (hh : s.halted = false) :
    step s = .next (stopLevelChange level { s with agenda := rest }) := step_of_agenda ha hh

theorem step_stepIrq {s : State} {rest : List Event} (ha : s.agenda = .stepIrq :: rest) (hh : s.halted = false)
    (hi : s.ie = true) (hp : s.stepPending = true) : step s = .next (stepHandler { s with agenda := rest }) := by
  rw [step_of_agenda ha hh]
  exact congrArg Host.Outcome.next (tryHandler_step ((canTake_step _).2 ⟨hi, hp, hh⟩))

theorem step_stopIrq {s : State} {rest : List Event} (ha : s.agenda = .stopIrq :: rest) (hh : s.halted = false)
    (hi : s.ie = true) (hp : s.stopPending = true) : step s = .next (stopHandler { s with agenda := rest }) := by
  rw [step_of_agenda ha hh]
  exact congrArg Host.Outcome.next (tryHandler_stop ((canTake_stop _).2 ⟨hi, hp, hh⟩))

theorem step_snap {s : State} {rest : List Event} (ha : s.agenda = .foreground :: rest) (hh : s.halted = false)
    (hp : s.pc = .snap) : step s = .next (snapTransaction { s with agenda := rest }) :=
  (step_of_agenda ha hh).trans (foreground_snap hp)

theorem step_apply {s : State} {rest : List Event} (ha : s.agenda = .foreground :: rest) (hh : s.halted = false)
    (hp : s.pc = .apply) : step s = .next (applyTransaction { s with agenda := rest }) :=
  (step_of_agenda ha hh).trans (foreground_apply hp)

end Sys2Proof.Machine
end

