-- ==== Sys2Proof/Laws/PerInstr.lean ====
section
/-! SUPPORT. A statement about every command's encoding, one lemma per command. -/

/-- The header of the encoding (30_encoding.md R71): byte 0 is the id of R80, byte 1 the control byte's value, and the
two restart ids are those of the two restart commands. -/
def Sys2Proof.Laws.Encoding.Statement (i : Sys2Proof.Instr) : Prop :=
  (Sys2Proof.encode i).commandId = i.commandId ∧ (Sys2Proof.encode i).controlByte = i.ctl.toByte ∧
    (i.isRestart = true ↔ i.commandId = 200#8 ∨ i.commandId = 201#8)

namespace Sys2Proof.Laws.Encoding

theorem getPos (ctl : ControlByte) (payload : Word) :
    Statement (.getPos ctl payload) := ⟨rfl, rfl, by simp [Instr.isRestart, Instr.commandId]⟩

theorem setPosSetpt (ctl : ControlByte) (operand : Word) :
    Statement (.setPosSetpt ctl operand) := ⟨rfl, rfl, by simp [Instr.isRestart, Instr.commandId]⟩

theorem getPosSetpt (ctl : ControlByte) (payload : Word) :
    Statement (.getPosSetpt ctl payload) := ⟨rfl, rfl, by simp [Instr.isRestart, Instr.commandId]⟩

theorem setVelSetpt (ctl : ControlByte) (operand rest : Half) :
    Statement (.setVelSetpt ctl operand rest) := ⟨rfl, rfl, by simp [Instr.isRestart, Instr.commandId]⟩

theorem getVelSetpt (ctl : ControlByte) (payload : Word) :
    Statement (.getVelSetpt ctl payload) := ⟨rfl, rfl, by simp [Instr.isRestart, Instr.commandId]⟩

theorem getVel (ctl : ControlByte) (payload : Word) :
    Statement (.getVel ctl payload) := ⟨rfl, rfl, by simp [Instr.isRestart, Instr.commandId]⟩

theorem setDirSetpt (ctl : ControlByte) (operand : Byte) (rest : BitVec 24) :
    Statement (.setDirSetpt ctl operand rest) := ⟨rfl, rfl, by simp [Instr.isRestart, Instr.commandId]⟩

theorem getDirSetpt (ctl : ControlByte) (payload : Word) :
    Statement (.getDirSetpt ctl payload) := ⟨rfl, rfl, by simp [Instr.isRestart, Instr.commandId]⟩

theorem setMode (ctl : ControlByte) (operand : Byte) (rest : BitVec 24) :
    Statement (.setMode ctl operand rest) := ⟨rfl, rfl, by simp [Instr.isRestart, Instr.commandId]⟩

theorem getMode (ctl : ControlByte) (payload : Word) :
    Statement (.getMode ctl payload) := ⟨rfl, rfl, by simp [Instr.isRestart, Instr.commandId]⟩

theorem setPosVel (ctl : ControlByte) (operand rest : Half) :
    Statement (.setPosVel ctl operand rest) := ⟨rfl, rfl, by simp [Instr.isRestart, Instr.commandId]⟩

theorem getPosVel (ctl : ControlByte) (payload : Word) :
    Statement (.getPosVel ctl payload) := ⟨rfl, rfl, by simp [Instr.isRestart, Instr.commandId]⟩

theorem getPosErr (ctl : ControlByte) (payload : Word) :
    Statement (.getPosErr ctl payload) := ⟨rfl, rfl, by simp [Instr.isRestart, Instr.commandId]⟩

theorem setZeroPos (ctl : ControlByte) (operand : Word) :
    Statement (.setZeroPos ctl operand) := ⟨rfl, rfl, by simp [Instr.isRestart, Instr.commandId]⟩

theorem getMaxVel (ctl : ControlByte) (payload : Word) :
    Statement (.getMaxVel ctl payload) := ⟨rfl, rfl, by simp [Instr.isRestart, Instr.commandId]⟩

theorem getMinVel (ctl : ControlByte) (payload : Word) :
    Statement (.getMinVel ctl payload) := ⟨rfl, rfl, by simp [Instr.isRestart, Instr.commandId]⟩

theorem getStatus (ctl : ControlByte) (payload : Word) :
    Statement (.getStatus ctl payload) := ⟨rfl, rfl, by simp [Instr.isRestart, Instr.commandId]⟩

theorem setStatus (ctl : ControlByte) (operand : Byte) (rest : BitVec 24) :
    Statement (.setStatus ctl operand rest) := ⟨rfl, rfl, by simp [Instr.isRestart, Instr.commandId]⟩

theorem getDir (ctl : ControlByte) (payload : Word) :
    Statement (.getDir ctl payload) := ⟨rfl, rfl, by simp [Instr.isRestart, Instr.commandId]⟩

theorem setEnable (ctl : ControlByte) (operand : Byte) (rest : BitVec 24) :
    Statement (.setEnable ctl operand rest) := ⟨rfl, rfl, by simp [Instr.isRestart, Instr.commandId]⟩

theorem getEnable (ctl : ControlByte) (payload : Word) :
    Statement (.getEnable ctl payload) := ⟨rfl, rfl, by simp [Instr.isRestart, Instr.commandId]⟩

theorem setDioHi (ctl : ControlByte) (operand : Byte) (rest : BitVec 24) :
    Statement (.setDioHi ctl operand rest) := ⟨rfl, rfl, by simp [Instr.isRestart, Instr.commandId]⟩

theorem setDioLo (ctl : ControlByte) (operand : Byte) (rest : BitVec 24) :
    Statement (.setDioLo ctl operand rest) := ⟨rfl, rfl, by simp [Instr.isRestart, Instr.commandId]⟩

theorem getExtInt (ctl : ControlByte) (payload : Word) :
    Statement (.getExtInt ctl payload) := ⟨rfl, rfl, by simp [Instr.isRestart, Instr.commandId]⟩

theorem setExtInt (ctl : ControlByte) (operand : Byte) (rest : BitVec 24) :
    Statement (.setExtInt ctl operand rest) := ⟨rfl, rfl, by simp [Instr.isRestart, Instr.commandId]⟩

theorem deviceReset (ctl : ControlByte) (payload : Word) :
    Statement (.deviceReset ctl payload) := ⟨rfl, rfl, by simp [Instr.isRestart, Instr.commandId]⟩

theorem bootloaderMode (ctl : ControlByte) (payload : Word) :
    Statement (.bootloaderMode ctl payload) := ⟨rfl, rfl, by simp [Instr.isRestart, Instr.commandId]⟩

theorem test (ctl : ControlByte) (payload : Word) :
    Statement (.test ctl payload) := ⟨rfl, rfl, by simp [Instr.isRestart, Instr.commandId]⟩

end Sys2Proof.Laws.Encoding
end

