-- ==== Sys2Proof/Laws/Timing.lean ====
section
/-! SUPPORT. The reset as one fact, the constraint on reset values as a proposition, the timing premises over runs, one
step at a time, and the fairness premises over endless runs. -/

namespace Sys2Proof.Machine

/-- R241: what a Reset leaves, whatever the reset values are. -/
theorem resetBlock_holds (level : Bool) (s : State) : HoldsResetValues s.cfg.resets (resetBlock level s) := by
  constructor <;> rfl

/-- The constraint of R7 on the reset values, clause by clause. -/
theorem validResets_iff (p : Params) :
    validResets p = true ↔
      (p.resets.velocity.toNat ≤ maxVelocity p ∧ p.resets.velSetpoint.toNat ≤ maxVelocity p ∧
        p.resets.travelVelocity.toNat ≤ maxVelocity p) ∧
      (p.resets.outputEnabled = true ↔ 0 < p.resets.velocity.toNat) ∧
      (p.resets.velocity.toNat = 0 ∨ minVelocity p ≤ p.resets.velocity.toNat) ∧
      (p.timerTopMin ≤ p.resets.timerTop ∧ p.resets.timerTop ≤ p.timerTopMax) ∧
      (p.resets.stopPending = true → p.resets.stopInterlockEnabled = .enabled) ∧
      (p.resets.stopInterlockEnabled = .enabled → p.resets.stopPending = false → p.resets.runStatus = .stopped) ∧
      p.resets.ie = true ∧ p.resets.pc ≠ .apply ∧ p.resets.timerCount ≤ p.timerTopMax ∧
      p.resets.prescaleCount < p.prescaler := by
  simp only [validResets, Bool.and_eq_true, decide_eq_true_eq, and_assoc]

/-- R7, R39, R241: reset values that meet their constraint put the block into a state that meets the invariants of
R40. -/
theorem resetBlock_inv (level : Bool) {s : State} (hp : validParams s.cfg = true) (hr : validResets s.cfg = true) :
    BlockInv (resetBlock level s) := by
  obtain ⟨h1, h2, h3, h4, h6, h7, h8, h9, h10⟩ := (validResets_iff _).1 hr
  exact ⟨hp, h1, h2, h3, h4, h6, fun he _ hn => h7 he hn, h8, fun ha => absurd ha h9, h10, resetBlock_wf level s, hr⟩

/-! ### The state after a step -/

theorem after_of_step {s t : State} (h : step s = .next t) : s.after = t := by rw [State.after, h]

/-! ### TP1 (R251) -/

theorem ticksNext_of_tick {s : State} {rest : List Event} (ha : s.agenda = .tick :: rest) (hh : s.halted = false) :
    s.ticksNext = true := by simp [State.ticksNext, State.nextEvent, ha, hh]

theorem ticksNext_of_clock {s : State} {rest : List Event} (ha : s.agenda = .clock :: rest) (hh : s.halted = false) :
    s.ticksNext = true ↔ s.cfg.prescaler ≤ s.prescaleCount + 1 ∧ s.timerTop ≤ s.timerCount := by
  simp [State.ticksNext, State.nextEvent, ha, hh]

theorem ticksNext_of_stepIrq {s : State} {rest : List Event} (ha : s.agenda = .stepIrq :: rest) :
    s.ticksNext = false := by simp [State.ticksNext, State.nextEvent, ha]

theorem servesNext_of_stepIrq {s : State} {rest : List Event} (ha : s.agenda = .stepIrq :: rest) :
    s.servesNext .step = s.canTake .step := by simp [State.servesNext, State.nextEvent, ha]

theorem servesNext_step_of_clock {s : State} {rest : List Event} (ha : s.agenda = .clock :: rest) :
    s.servesNext .step = false := by
  simp only [State.servesNext, State.nextEvent, ha]
  exact Bool.and_eq_false_imp.2 fun _ => rfl

/-- A Tick in a run that meets TP1: none was unserved, and the rest of the run starts with this one unserved. -/
theorem noOverrun_of_tick {w : Bool} {n : Nat} {s : State} (h : noOverrun w (n + 1) s = true)
    (ht : s.ticksNext = true) : w = false ∧ noOverrun true n s.after = true := by
  simpa [noOverrun, ht] using h

/-- A step that makes no Tick, in a run that meets TP1. -/
theorem noOverrun_of_not_tick {w : Bool} {n : Nat} {s : State} (h : noOverrun w (n + 1) s = true)
    (ht : s.ticksNext = false) : noOverrun (w && !s.servesNext .step) n s.after = true := by
  simpa [noOverrun, ht] using h

/-! ### Fairness over endless runs (R105, R213) -/

/-- A block that is never halted again goes on ticking. -/
theorem tick_of_recur {events : Nat → Event} {run : Nat → State} (h : TicksRecur events run) (n : Nat)
    (hh : ∀ m : Nat, n ≤ m → (run m).halted = false) : ∃ m : Nat, n ≤ m ∧ (facing events run m).ticksNext = true := by
  obtain ⟨m, hm, ht | hl⟩ := h n
  · exact ⟨m, hm, ht⟩
  · exact absurd (hh m hm) (by simp [hl])

/-- What a tick does at a step of an endless run, where the event is R104's. -/
theorem run_of_tick {events : Nat → Event} {run : Nat → State} (h : EndlessRun events run) {n : Nat}
    (he : events n = .tick) (hh : (run n).halted = false) : run (n + 1) = tick { run n with agenda := [] } := by
  have hs : step (facing events run n) = .next (tick { run n with agenda := [] }) :=
    step_tick (s := facing events run n) (rest := []) (by simp [facing, he]) hh
  exact (Host.Outcome.next.inj (hs.symm.trans (h n))).symm

/-- What a run of the step handler does at a step of an endless run. -/
theorem run_of_stepIrq {events : Nat → Event} {run : Nat → State} (h : EndlessRun events run) {n : Nat}
    (he : (facing events run n).servesNext .step = true) :
    run (n + 1) = stepHandler { run n with agenda := [] } := by
  simp only [State.servesNext, Bool.and_eq_true, beq_iff_eq] at he
  obtain ⟨h1, h2, h3⟩ := (canTake_step _).1 he.1
  have hs : step (facing events run n) = .next (stepHandler { run n with agenda := [] }) :=
    step_stepIrq (s := facing events run n) (rest := []) (congrArg (fun e => [e]) he.2) h3 h1 h2
  exact (Host.Outcome.next.inj (hs.symm.trans (h n))).symm

/-- A handler that runs every time its event comes round is weakly fair. -/
theorem handlerFair_of_recurs {events : Nat → Event} {run : Nat → State} {src : IrqSource}
    (h : ∀ n : Nat, ∃ m : Nat, n ≤ m ∧ ((facing events run m).servesNext src = true ∨ (run m).canTake src = false)) :
    HandlerFair events run src := by
  intro n hn
  obtain ⟨m, hm, hs | hc⟩ := h n
  · exact ⟨m, hm, hs⟩
  · exact absurd (hn m hm) (by simp [hc])

end Sys2Proof.Machine
end

