-- ==== Sys2Proof/Tests/Slice0.lean ====
section
/-! SUPPORT. Tests: words and expected values from the spec's tables and worked vectors (95_test_vectors.md, the
examples of the rules), never from the model; and for each statement with hypotheses a witness that meets them all. -/

namespace Sys2Proof.Tests

open Sys2Proof.Machine

/-! ### Helpers -/

/-- The 48-bit word of six request bytes, offset 0 first (R81). -/
def request (b0 b1 b2 b3 b4 b5 : Nat) : Nat :=
  b0 + 256 * (b1 + 256 * (b2 + 256 * (b3 + 256 * (b4 + 256 * b5))))

/-- The state after a step that goes on. -/
def stepped (s : State) : State :=
  match step s with
  | .next t => t
  | .fault _ => s
  | .refused _ => s

/-- `s` after the EXEC of a request. -/
def sent (s : State) (w : Nat) : State := stepped (s.withFetchWord 48 w)

/-- `s` after one event. -/
def happens (s : State) (e : Event) : State := stepped { s with agenda := [e] }

/-- The bytes a u8 response fixes. -/
def seen8 (s : State) : List Byte := [s.pktByte 0, s.pktByte 1, s.pktByte 2]

/-- The bytes a u16 response fixes. -/
def seen16 (s : State) : List Byte := [s.pktByte 0, s.pktByte 1, s.pktByte 2, s.pktByte 3]

/-- The six bytes of the buffer. -/
def seen32 (s : State) : List Byte :=
  [s.pktByte 0, s.pktByte 1, s.pktByte 2, s.pktByte 3, s.pktByte 4, s.pktByte 5]

/-- The start state of the query table of 95_test_vectors.md 2.5. -/
def busy : State :=
  { State.reset with
    mode := .position, direction := .negative, velocity := 5000, position := 0xFFFFFFFB, posSetpoint := 100
    travelVelocity := 5000, velSetpoint := 6000, dirSetpoint := .negative, runStatus := .running
    enable := .enabled, stopInterlockEnabled := .enabled, outputEnabled := true }

/-- A motor moving POSITIVE at 1000 in VELOCITY mode (95_test_vectors.md 2.11). -/
def moving : State :=
  { State.reset with
    velocity := 1000, velSetpoint := 1000, runStatus := .running, timerTop := 1999, outputEnabled := true
    trigger := true }

/-- A motor moving to 100 in POSITION mode (95_test_vectors.md Scenario B). -/
def travelling : State :=
  { State.reset with
    mode := .position, velocity := 5000, posSetpoint := 100, travelVelocity := 5000, runStatus := .running
    timerTop := 399, outputEnabled := true }

/-! ### WellFormed: a control byte named reserved that is not (R83) -/

theorem test_wf_refuses_reserved_200 : (Instr.getPos (.reserved 200) 0).wf = false := by decide

theorem test_wf_refuses_reserved_201 : (Instr.setStatus (.reserved 201) 1 0).wf = false := by decide

theorem test_wf_accepts_reserved_0 : (Instr.setStatus (.reserved 0) 1 0).wf = true := by decide

/-! ### Decoding, one word for each command (R80, R81) -/

theorem test_decode_getPos :
    decodeTableWord 48 (request 0x00 0xC9 0xDE 0xAD 0xBE 0xEF) = some (.getPos .noApply 0xEFBEADDE) := by decide

theorem test_decode_setPosSetpt :
    decodeTableWord 48 (request 0x01 0xC9 0xFD 0xFF 0xFF 0xFF) = some (.setPosSetpt .noApply 0xFFFFFFFD) := by decide

theorem test_decode_getPosSetpt :
    decodeTableWord 48 (request 0x02 0xC8 0 0 0 0) = some (.getPosSetpt .apply 0) := by decide

theorem test_decode_setVelSetpt :
    decodeTableWord 48 (request 0x03 0xC9 0x70 0x17 0xAA 0xBB) = some (.setVelSetpt .noApply 6000 0xBBAA) := by decide

theorem test_decode_getVelSetpt :
    decodeTableWord 48 (request 0x04 0xC9 0 0 0 0) = some (.getVelSetpt .noApply 0) := by decide

theorem test_decode_getVel : decodeTableWord 48 (request 0x05 0xFF 0 0 0 0) = some (.getVel (.reserved 0xFF) 0) := by
  decide

theorem test_decode_setDirSetpt :
    decodeTableWord 48 (request 0x06 0xC9 0x01 0x02 0x03 0x04) = some (.setDirSetpt .noApply 1 0x040302) := by decide

theorem test_decode_getDirSetpt :
    decodeTableWord 48 (request 0x07 0xC9 0 0 0 0) = some (.getDirSetpt .noApply 0) := by decide

theorem test_decode_setMode :
    decodeTableWord 48 (request 0x08 0xC8 0x01 0 0 0) = some (.setMode .apply 1 0) := by decide

theorem test_decode_getMode : decodeTableWord 48 (request 0x09 0xC8 0 0 0 0) = some (.getMode .apply 0) := by decide

theorem test_decode_setPosVel :
    decodeTableWord 48 (request 0x0A 0xC9 0x88 0x13 0 0) = some (.setPosVel .noApply 5000 0) := by decide

theorem test_decode_getPosVel :
    decodeTableWord 48 (request 0x0B 0xC9 0 0 0 0) = some (.getPosVel .noApply 0) := by decide

theorem test_decode_getPosErr :
    decodeTableWord 48 (request 0x0C 0xC9 0 0 0 0) = some (.getPosErr .noApply 0) := by decide

theorem test_decode_setZeroPos :
    decodeTableWord 48 (request 0x0D 0xC9 0x01 0x00 0x00 0x80) = some (.setZeroPos .noApply 0x80000001) := by decide

theorem test_decode_getMaxVel :
    decodeTableWord 48 (request 0x0E 0xC9 0 0 0 0) = some (.getMaxVel .noApply 0) := by decide

theorem test_decode_getMinVel :
    decodeTableWord 48 (request 0x0F 0xC9 0 0 0 0) = some (.getMinVel .noApply 0) := by decide

theorem test_decode_getStatus :
    decodeTableWord 48 (request 0x10 0xC9 0 0 0 0) = some (.getStatus .noApply 0) := by decide

theorem test_decode_setStatus :
    decodeTableWord 48 (request 0x11 0x00 0x01 0 0 0) = some (.setStatus (.reserved 0) 1 0) := by decide

theorem test_decode_getDir : decodeTableWord 48 (request 0x12 0xC9 0 0 0 0) = some (.getDir .noApply 0) := by decide

theorem test_decode_setEnable :
    decodeTableWord 48 (request 0x13 0xC9 0x01 0 0 0) = some (.setEnable .noApply 1 0) := by decide

theorem test_decode_getEnable :
    decodeTableWord 48 (request 0x14 0xC9 0 0 0 0) = some (.getEnable .noApply 0) := by decide

theorem test_decode_setDioHi :
    decodeTableWord 48 (request 0x15 0xC9 0x03 0 0 0) = some (.setDioHi .noApply 3 0) := by decide

theorem test_decode_setDioLo :
    decodeTableWord 48 (request 0x16 0xC9 0xFF 0 0 0) = some (.setDioLo .noApply 255 0) := by decide

theorem test_decode_getExtInt :
    decodeTableWord 48 (request 0x17 0xC9 0 0 0 0) = some (.getExtInt .noApply 0) := by decide

theorem test_decode_setExtInt :
    decodeTableWord 48 (request 0x18 0xC8 0x01 0 0 0) = some (.setExtInt .apply 1 0) := by decide

theorem test_decode_deviceReset :
    decodeTableWord 48 (request 0xC8 0xC8 1 2 3 4) = some (.deviceReset .apply 0x04030201) := by decide

theorem test_decode_bootloaderMode :
    decodeTableWord 48 (request 0xC9 0xC9 0 0 0 0) = some (.bootloaderMode .noApply 0) := by decide

theorem test_decode_test : decodeTableWord 48 (request 0xFB 0xC9 0 0 0 0) = some (.test .noApply 0) := by decide

theorem test_decode_short_word : decodeTableWord 8 0x11 = some (.setStatus (.reserved 0) 0 0) := by decide

/-- R84, at the ends of its three ranges. -/
theorem test_decode_unknown_ids :
    decode ⟨25, 200, 1, 2, 3, 4⟩ = .unknown 25 ∧ decode ⟨199, 0, 0, 0, 0, 0⟩ = .unknown 199 ∧
      decode ⟨202, 0, 0, 0, 0, 0⟩ = .unknown 202 ∧ decode ⟨250, 0, 0, 0, 0, 0⟩ = .unknown 250 ∧
      decode ⟨252, 0, 0, 0, 0, 0⟩ = .unknown 252 ∧ decode ⟨255, 0, 0, 0, 0, 0⟩ = .unknown 255 := by decide

/-! ### The divider (95_test_vectors.md 2.1; S10) -/

theorem test_limits_ref : maxVelocity Params.ref = 50000 ∧ minVelocity Params.ref = 237 := by decide

theorem test_divider_ref :
    configurePulseRate Params.ref 236 = 8438 ∧ configurePulseRate Params.ref 237 = 8438 ∧
      configurePulseRate Params.ref 238 = 8402 ∧ configurePulseRate Params.ref 6000 = 332 ∧
      configurePulseRate Params.ref 50000 = 39 ∧ configurePulseRate Params.ref 65535 = 39 := by decide

/-- Ties round up. -/
theorem test_divider_ties :
    configurePulseRate Params.ref 256 = 7812 ∧ configurePulseRate Params.ref 1280 = 1562 ∧
      configurePulseRate Params.ref 6400 = 312 ∧ configurePulseRate Params.ref 32000 = 62 := by decide

/-- The second parameter set of 2.1, and the one R8 rejects. -/
theorem test_second_parameters :
    validParams { Params.ref with clockFrequency := 1000000, prescaler := 1, timerTopMin := 9, timerTopMax := 999 } = false ∧
      maxVelocity { Params.ref with clockFrequency := 1000000, prescaler := 1, timerTopMin := 19, timerTopMax := 999 } =
        50000 ∧
      minVelocity { Params.ref with clockFrequency := 1000000, prescaler := 1, timerTopMin := 19, timerTopMax := 999 } =
        1000 := by decide

/-! ### Queries (95_test_vectors.md 2.5) -/

theorem test_getPos : seen32 (sent busy (request 0x00 0xC9 0xDE 0xAD 0xBE 0xEF)) = [0x00, 0x02, 0xFB, 0xFF, 0xFF, 0xFF] := by
  decide

theorem test_getPosSetpt : seen32 (sent busy (request 0x02 0xC9 0 0 0 0)) = [0x02, 0x02, 0x64, 0x00, 0x00, 0x00] := by
  decide

theorem test_getVelSetpt : seen16 (sent busy (request 0x04 0xC9 0 0 0 0)) = [0x04, 0x01, 0x70, 0x17] := by decide

theorem test_getVel : seen16 (sent busy (request 0x05 0xC9 0 0 0 0)) = [0x05, 0x01, 0x88, 0x13] := by decide

theorem test_getDirSetpt : seen8 (sent busy (request 0x07 0xC9 0 0 0 0)) = [0x07, 0x00, 0x01] := by decide

theorem test_getMode : seen8 (sent busy (request 0x09 0xC9 0 0 0 0)) = [0x09, 0x00, 0x01] := by decide

theorem test_getPosVel : seen16 (sent busy (request 0x0B 0xC9 0 0 0 0)) = [0x0B, 0x01, 0x88, 0x13] := by decide

theorem test_getPosErr : seen32 (sent busy (request 0x0C 0xC9 0 0 0 0)) = [0x0C, 0x02, 0x69, 0x00, 0x00, 0x00] := by
  decide

theorem test_getPosErr_wraps :
    seen32 (sent { State.reset with posSetpoint := 0x7FFFFFFF, position := 0xFFFFFFFF } (request 0x0C 0xC9 0 0 0 0)) =
      [0x0C, 0x02, 0x00, 0x00, 0x00, 0x80] := by decide

theorem test_getMaxVel : seen16 (sent busy (request 0x0E 0xC9 0 0 0 0)) = [0x0E, 0x01, 0x50, 0xC3] := by decide

theorem test_getMinVel : seen16 (sent busy (request 0x0F 0xC9 0 0 0 0)) = [0x0F, 0x01, 0xED, 0x00] := by decide

theorem test_getStatus : seen8 (sent busy (request 0x10 0xC9 0 0 0 0)) = [0x10, 0x00, 0x01] := by decide

theorem test_getDir : seen8 (sent busy (request 0x12 0xC9 0 0 0 0)) = [0x12, 0x00, 0x01] := by decide

theorem test_getEnable : seen8 (sent busy (request 0x14 0xC9 0 0 0 0)) = [0x14, 0x00, 0x01] := by decide

theorem test_getExtInt : seen8 (sent busy (request 0x17 0xC9 0 0 0 0)) = [0x17, 0x00, 0x01] := by decide

/-! ### Setters (95_test_vectors.md 2.6) -/

/-- N10, S3. -/
theorem test_setPosSetpt :
    (sent State.reset (request 0x01 0xC9 0x00 0x00 0x00 0x80)).posSetpoint = 0x80000000 ∧
      seen32 (sent State.reset (request 0x01 0xC9 0x00 0x00 0x00 0x80)) = [0x01, 0x02, 0x00, 0x00, 0x00, 0x80] := by decide

/-- N2. -/
theorem test_setVelSetpt_clamps :
    (sent State.reset (request 0x03 0xC9 0xFF 0xFF 0 0)).velSetpoint = 50000 ∧
      seen16 (sent State.reset (request 0x03 0xC9 0xFF 0xFF 0 0)) = [0x03, 0x01, 0x50, 0xC3] := by decide

/-- Q2: the control byte was read before the tag overwrote it. -/
theorem test_setVelSetpt_apply :
    (sent State.reset (request 0x03 0xC8 0x70 0x17 0 0)).velSetpoint = 6000 ∧
      (sent State.reset (request 0x03 0xC8 0x70 0x17 0 0)).pc = .snap := by decide

/-- N8. -/
theorem test_setPosVel :
    (sent State.reset (request 0x0A 0xC9 0x88 0x13 0 0)).travelVelocity = 5000 ∧
      seen16 (sent State.reset (request 0x0A 0xC9 0x88 0x13 0 0)) = [0x0A, 0x01, 0x88, 0x13] := by decide

/-- Z1. -/
theorem test_setZeroPos :
    (sent { State.reset with position := 40, posSetpoint := 100 } (request 0x0D 0xC9 0x28 0 0 0)).posSetpoint = 60 ∧
      seen32 (sent { State.reset with position := 40, posSetpoint := 100 } (request 0x0D 0xC9 0x28 0 0 0)) =
        [0x0D, 0x02, 0, 0, 0, 0] := by decide

/-- Z3. -/
theorem test_setZeroPos_wraps :
    (sent { State.reset with posSetpoint := 0x80000000 } (request 0x0D 0xC9 0x01 0 0 0)).posSetpoint = 0x7FFFFFFF := by
  decide

/-- E4. -/
theorem test_setDirSetpt :
    (sent State.reset (request 0x06 0xC9 0x01 0xFF 0xFF 0xFF)).dirSetpoint = .negative ∧
      seen8 (sent State.reset (request 0x06 0xC9 0x01 0xFF 0xFF 0xFF)) = [0x06, 0x00, 0x01] := by decide

/-- E3. -/
theorem test_setDirSetpt_rejects :
    seen8 (sent { State.reset with dirSetpoint := .negative } (request 0x06 0xC9 0x02 0 0 0)) = [0x06, 0x00, 0x01] := by
  decide

/-- M1. -/
theorem test_setMode :
    (sent State.reset (request 0x08 0xC9 0x01 0 0 0)).mode = .position ∧
      seen8 (sent State.reset (request 0x08 0xC9 0x01 0 0 0)) = [0x08, 0x00, 0x01] := by decide

/-- M2. -/
theorem test_setMode_rejects : seen8 (sent State.reset (request 0x08 0xC9 0x02 0 0 0)) = [0x08, 0x00, 0x00] := by decide

/-- T2: accepted while asserted where the interlock is disabled. -/
theorem test_setStatus_running :
    (sent { State.reset with stopLevel := true } (request 0x11 0xC9 0x01 0 0 0)).runStatus = .running := by decide

/-- T4. -/
theorem test_setStatus_refused :
    seen8 (sent { State.reset with stopInterlockEnabled := .enabled, stopLevel := true } (request 0x11 0xC9 0x01 0 0 0)) =
      [0x11, 0x00, 0x00] := by decide

/-- B1. -/
theorem test_setEnable :
    (sent State.reset (request 0x13 0xC9 0x01 0 0 0)).drvEnableOut = true ∧
      seen8 (sent State.reset (request 0x13 0xC9 0x01 0 0 0)) = [0x13, 0x00, 0x01] := by decide

/-- B3. -/
theorem test_setEnable_rejects : seen8 (sent State.reset (request 0x13 0xC9 0x09 0 0 0)) = [0x13, 0x00, 0x00] := by decide

/-- X2. -/
theorem test_setExtInt_refused :
    seen8 (sent { State.reset with stopLevel := true } (request 0x18 0xC9 0x01 0 0 0)) = [0x18, 0x00, 0x00] := by decide

/-- X3. -/
theorem test_setExtInt_drops_request :
    (sent { State.reset with stopInterlockEnabled := .enabled, stopLevel := true, stopPending := true }
      (request 0x18 0xC9 0x00 0 0 0)).stopPending = false := by decide

/-! ### Outputs, restart, TEST, unknown ids (95_test_vectors.md 2.7) -/

/-- D2. -/
theorem test_setDioHi :
    (sent { State.reset with dio := 0b00001000 } (request 0x15 0xC9 0x07 0 0 0)).dio = 0b10001000 ∧
      seen8 (sent { State.reset with dio := 0b00001000 } (request 0x15 0xC9 0x07 0 0 0)) = [0x15, 0x00, 0x07] := by decide

/-- D3. -/
theorem test_setDioHi_index_8 :
    (sent { State.reset with dio := 0b10001000 } (request 0x15 0xC9 0x08 0 0 0)).dio = 0b10001000 ∧
      seen8 (sent { State.reset with dio := 0b10001000 } (request 0x15 0xC9 0x08 0 0 0)) = [0x15, 0x00, 0x08] := by decide

/-- D5. -/
theorem test_setDioLo :
    (sent { State.reset with dio := 0b10001000 } (request 0x16 0xC9 0x03 0 0 0)).dio = 0b10000000 := by decide

/-- R2: the response is the request, and no update follows. -/
theorem test_deviceReset :
    seen32 (sent State.reset (request 0xC8 0xC8 1 2 3 4)) = [0xC8, 0xC8, 1, 2, 3, 4] ∧
      (sent State.reset (request 0xC8 0xC8 1 2 3 4)).pc = .resp := by decide

/-- R3. -/
theorem test_bootloaderMode :
    seen32 (sent State.reset (request 0xC9 0xC8 1 2 3 4)) = [0xC9, 0xC8, 1, 2, 3, 4] ∧
      (sent State.reset (request 0xC9 0xC8 1 2 3 4)).pc = .resp := by decide

/-- TS1, with the tag U16 and the value 0x1234; TS2, the update follows. -/
theorem test_test :
    seen16 (sent { State.reset with cfg := { Params.ref with test := .u16 0x1234 } } (request 0xFB 0xC8 0 0 0 0)) =
        [0xFB, 0x01, 0x34, 0x12] ∧
      (sent { State.reset with cfg := { Params.ref with test := .u16 0x1234 } } (request 0xFB 0xC8 0 0 0 0)).pc = .snap := by
  decide

/-- U1. -/
theorem test_unknown :
    seen32 (sent State.reset (request 0x63 0xC8 0x11 0x22 0x33 0x44)) = [0x63, 0xC8, 0x11, 0x22, 0x33, 0x44] ∧
      (sent State.reset (request 0x63 0xC8 0x11 0x22 0x33 0x44)).pc = .resp := by decide

/-! ### Mode updates (95_test_vectors.md 2.3) -/

/-- PM1, PM3, PM5, PM8, PM10. -/
theorem test_position_targets :
    positionTargets travelling = ⟨5000, .positive, true, .keep, .position⟩ ∧
      positionTargets { travelling with position := 100 } = ⟨0, .negative, false, .keep, .position⟩ ∧
      positionTargets { travelling with travelVelocity := 236 } = ⟨0, .positive, false, .keep, .position⟩ ∧
      positionTargets { travelling with position := 0x80000000, posSetpoint := 0x7FFFFFFF } =
        ⟨5000, .negative, true, .keep, .position⟩ ∧
      positionTargets { travelling with position := 0xFFFFFFFF, posSetpoint := 0x7FFFFFFF } =
        ⟨5000, .negative, true, .keep, .position⟩ := by decide

/-- VM2, VM3, VM4. -/
theorem test_velocity_targets :
    velocityTargets { moving with runStatus := .stopped } = ⟨0, .positive, false, .drive false, .velocity⟩ ∧
      velocityTargets { moving with velSetpoint := 237 } = ⟨237, .positive, true, .drive true, .velocity⟩ ∧
      velocityTargets { moving with velSetpoint := 236 } = ⟨0, .positive, false, .drive false, .velocity⟩ := by decide

/-- VM1's apply. -/
theorem test_apply :
    (happens { State.reset with pc := .apply, latches := ⟨6000, .positive, true, .drive true, .velocity⟩ }
        .foreground).timerTop = 332 ∧
      (happens { State.reset with pc := .apply, latches := ⟨6000, .positive, true, .drive true, .velocity⟩ }
        .foreground).trigger = true := by decide

/-- VM4's apply: `timerTop` is kept. -/
theorem test_apply_idle :
    (happens { moving with pc := .apply, latches := ⟨0, .positive, false, .drive false, .velocity⟩ }
      .foreground).timerTop = 1999 := by decide

/-! ### Events and handlers (95_test_vectors.md 2.2, 2.8, 2.9) -/

/-- G1, G2. -/
theorem test_tick :
    (happens { moving with direction := .negative } .tick).history = [.stepPulse .negative] ∧
      (happens State.reset .tick).history = [] ∧ (happens State.reset .tick).stepPending = true := by decide

/-- H5. -/
theorem test_step_arrival :
    (happens { travelling with position := 99, stepPending := true } .stepIrq).position = 100 ∧
      (happens { travelling with position := 99, stepPending := true } .stepIrq).velocity = 0 ∧
      (happens { travelling with position := 99, stepPending := true } .stepIrq).outputEnabled = false := by decide

/-- H8, H11. -/
theorem test_step_count :
    (happens { travelling with position := 100, stepPending := true } .stepIrq).position = 101 ∧
      (happens { moving with position := 0x80000000, direction := .negative, stepPending := true } .stepIrq).position =
        0x7FFFFFFF := by decide

/-- H14. -/
theorem test_step_not_pending : (happens { moving with position := 7 } .stepIrq).position = 7 := by decide

/-- K1. -/
theorem test_stop_velocity :
    (happens { moving with stopInterlockEnabled := .enabled, stopPending := true } .stopIrq).runStatus = .stopped ∧
      (happens { moving with stopInterlockEnabled := .enabled, stopPending := true } .stopIrq).velSetpoint = 0 ∧
      (happens { moving with stopInterlockEnabled := .enabled, stopPending := true } .stopIrq).outputEnabled = false ∧
      (happens { moving with stopInterlockEnabled := .enabled, stopPending := true } .stopIrq).trigger = false := by decide

/-- K2. -/
theorem test_stop_position :
    (happens { travelling with position := 30, stopInterlockEnabled := .enabled, stopPending := true } .stopIrq).posSetpoint =
        30 ∧
      (happens { travelling with position := 30, stopInterlockEnabled := .enabled, stopPending := true } .stopIrq).direction =
        .negative := by decide

/-- L1, L2, L5, L6. -/
theorem test_stop_level :
    (happens { State.reset with stopInterlockEnabled := .enabled } (.stopLevelChange true)).stopPending = true ∧
      (happens State.reset (.stopLevelChange true)).stopPending = false ∧
      (happens { State.reset with stopInterlockEnabled := .enabled, stopLevel := true, stopPending := true }
        (.stopLevelChange false)).stopPending = true ∧
      (happens { State.reset with
          stopInterlockEnabled := .enabled, stopLevel := true, cfg := { Params.ref with stopActiveLevel := false } }
        (.stopLevelChange false)).stopPending = true := by decide

/-- Q1 and Q6. -/
theorem test_accept :
    seen32 (happens State.reset (.accept ⟨0x03, 0xC8, 0x70, 0x17, 0, 0⟩)) = [0x03, 0xC8, 0x70, 0x17, 0, 0] ∧
      (happens State.reset (.accept ⟨0x03, 0xC8, 0x70, 0x17, 0, 0⟩)).pc = .exec ∧
      (happens { State.reset with pc := .resp } (.accept ⟨0x03, 0xC8, 0x70, 0x17, 0, 0⟩)).pc = .resp := by decide

/-- R1: the response precedes the restart. -/
theorem test_respond_then_restart :
    (happens ({ State.reset with pc := .resp }.setPacket ⟨0xC8, 0xC9, 0, 0, 0, 0⟩) .respond).pc = .resetAct ∧
      (happens ({ State.reset with pc := .resp }.setPacket ⟨0xC8, 0xC9, 0, 0, 0, 0⟩) .respond).history =
        [.response ⟨0xC8, 0xC9, 0, 0, 0, 0⟩] := by decide

/-- R1, RESET_ACT. -/
theorem test_resetAct :
    (happens { moving with pc := .resetAct, dio := 4 } .foreground).history = [.deviceResetRequest] ∧
      (happens { moving with pc := .resetAct, dio := 4 } .foreground).outputEnabled = false ∧
      (happens { moving with pc := .resetAct, dio := 4 } .foreground).dio = 0 := by decide

/-- R3 to R5: BOOT_ACT halts, and only Reset ends it. -/
theorem test_bootAct :
    (happens { moving with pc := .bootAct } .foreground).halted = true ∧
      (happens { moving with halted := true } .tick).history = [] ∧
      (happens { moving with halted := true } (.reset true)).halted = false := by decide

/-- R256 at the last prescaled cycle of a period, and R257: a count above the top ticks too. -/
theorem test_clock :
    (happens { moving with prescaleCount := 7, timerCount := 1999 } .clock).history = [.stepPulse .positive] ∧
      (happens { moving with prescaleCount := 7, timerCount := 1998 } .clock).history = [] ∧
      (happens { moving with prescaleCount := 7, timerCount := 5000 } .clock).timerCount = 0 := by decide

/-- A2: a section inside a handler does not re-enable. -/
theorem test_section_inside_handler : (critical id { State.reset with ie := false }).ie = false := by decide

/-- A6 and A7 (R213). -/
theorem test_service_bound :
    serviceBound 4 { moving with pc := .snap, agenda := [.tick, .foreground, .foreground, .stepIrq] } = false ∧
      serviceBound 3 { moving with pc := .snap, agenda := [.tick, .foreground, .stepIrq] } = true := by decide

/-- R251: two Ticks with no handler between, made by the clock or by the event, break TP1. -/
theorem test_clock_overrun :
    noOverrun false 2 { moving with timerTop := 0, prescaleCount := 7, agenda := [.clock, .tick, .stepIrq] } = false ∧
      noOverrun false 2 { moving with prescaleCount := 6, agenda := [.tick, .clock, .stepIrq] } = true ∧
      noOverrun false 3 { moving with timerTop := 0, prescaleCount := 7, agenda := [.clock, .stepIrq, .tick] } = true := by
  decide

/-- R251: two runs of the stop handler between a Tick and its handler break the premises, one does not. -/
theorem test_two_stops_before_the_step :
    timingPremises 6 { moving with
        stopInterlockEnabled := .enabled
        agenda := [.tick, .stopLevelChange true, .stopIrq, .stopLevelChange false, .stopLevelChange true, .stopIrq] } =
        false ∧
      timingPremises 4 { moving with
        stopInterlockEnabled := .enabled, agenda := [.tick, .stopLevelChange true, .stopIrq, .stepIrq] } = true := by decide

/-- R7: a reset into RUNNING under an enabled interlock breaks INV7; one into VELOCITY NEGATIVE is allowed and taken. -/
theorem test_reset_parameters :
    validResets { Params.ref with
        resets := { ResetValues.table 8438 with stopInterlockEnabled := .enabled, runStatus := .running } } = false ∧
      validResets { Params.ref with resets := { ResetValues.table 8438 with dirSetpoint := .negative } } = true ∧
      (happens { moving with
          cfg := { Params.ref with resets := { ResetValues.table 8438 with dirSetpoint := .negative } } }
        (.reset true)).dirSetpoint = .negative := by decide

/-- G7, G8 (R101). -/
theorem test_dir_line : moving.dirOut = .positive ∧ State.reset.dirOut = .idle := by decide

/-! ### Fairness (R105, R213): the schedule TICKS for ever (R88), from a moving motor, meets both premises -/

/-- Ticks and runs of the step handler in turn. -/
def ticksForever (n : Nat) : Event := if n % 2 = 0 then .tick else .stepIrq

/-- The run of `ticksForever` from `moving`: after `n` events, half of them counted, the other half pulses. -/
def movingForever (n : Nat) : State :=
  { moving with
    position := BitVec.ofNat 32 (n / 2)
    stepPending := decide (n % 2 = 1)
    history := List.replicate ((n + 1) / 2) (.stepPulse .positive) }

theorem test_run_for_ever : EndlessRun ticksForever movingForever := by
  intro n
  rcases Nat.mod_two_eq_zero_or_one n with h | h
  · rw [step_tick (rest := []) (by simp [facing, ticksForever, h]) rfl, tick_eq]
    simp only [facing, movingForever, moving, State.reset, State.ofResets, if_true]
    rw [show (n + 1) / 2 = n / 2 by omega, show (n + 1 + 1) / 2 = n / 2 + 1 by omega, List.replicate_succ',
      show (n + 1) % 2 = 1 by omega]
    rfl
  · rw [step_stepIrq (rest := []) (by simp [facing, ticksForever, h]) rfl rfl (by simp [facing, movingForever, h]),
      stepHandler_eq, if_pos ⟨rfl, show 0 < moving.velocity.toNat by decide⟩,
      if_neg (by intro hm; exact nomatch hm.1)]
    simp only [facing, movingForever, moving, State.reset, State.ofResets]
    rw [show (n + 1) / 2 = n / 2 + 1 by omega, show (n + 1 + 1) / 2 = n / 2 + 1 by omega, show (n + 1) % 2 = 0 by omega]
    simp [countOne, Params.ref, ResetValues.table, BitVec.ofNat_add]

theorem test_fair_run : FairRun ticksForever movingForever where
  endless := test_run_for_ever
  ticksRecur n := ⟨2 * n, by omega, .inl (by
    simp [State.ticksNext, facing, State.nextEvent, ticksForever, movingForever, moving, State.reset, State.ofResets,
      Params.ref, ResetValues.table])⟩
  stepFair := handlerFair_of_recurs fun n => ⟨2 * n, by omega, .inr (by
    simp [State.canTake, State.pending, movingForever])⟩
  stopFair := handlerFair_of_recurs fun n => ⟨n, Nat.le_refl n, .inr (by
    simp [State.canTake, State.pending, movingForever, moving, State.reset, State.ofResets, Params.ref,
      ResetValues.table])⟩

/-- R105: with no Tick for ever the premise fails. -/
theorem test_no_ticks : ¬ TicksRecur (fun _ => .foreground) (fun _ => State.reset) := by
  intro h
  obtain ⟨m, _, hm | hm⟩ := h 0
  · simp [State.ticksNext, facing, State.nextEvent] at hm
  · exact nomatch hm

/-- R213: a handler that stays enabled and is never taken breaks weak fairness. -/
theorem test_unfair :
    ¬ HandlerFair (fun _ => .foreground) (fun _ => { State.reset with stepPending := true }) .step := by
  intro h
  obtain ⟨m, _, hm⟩ := h 0 fun _ _ => rfl
  simp [State.servesNext, facing, State.nextEvent] at hm

/-! ### Witnesses: states and operands that meet every hypothesis of a statement -/

theorem valid_ref : validParams Params.ref = true := by decide

theorem reset_inv : BlockInv State.reset := by
  refine ⟨by decide, ?_, ?_, ?_, ⟨by decide, by decide⟩, ?_, ?_, rfl, ?_, ⟨by decide, by decide⟩, rfl, by decide⟩
  · exact ⟨by decide, by decide, by decide⟩
  · simp [GateOpenIffMoving, State.reset, State.ofResets, Params.ref, ResetValues.table]
  · exact .inl rfl
  · exact fun h => Bool.noConfusion h
  · exact fun h => nomatch h
  · exact fun h => nomatch h

/-- A command in the buffer of a running block, its EXEC next. -/
def ready (w : Nat) : State := State.reset.withFetchWord 48 w

theorem witness_DecodeOfEncodeIsTheCommand :
    (Instr.setStatus .apply 1 0).wf = true ∧ (Instr.setStatus (.reserved 199) 1 0).wf = true := by decide

theorem witness_EncodeOfDecodedIsThePacket :
    decode ⟨0x11, 0xC8, 0x01, 0, 0, 0⟩ = .command (.setStatus .apply 1 0) := by decide

theorem witness_UnknownIdsAreTheUnassignedOnes :
    decode ⟨25, 0, 0, 0, 0, 0⟩ = .unknown 25 ∧ decode ⟨250, 0, 0, 0, 0, 0⟩ = .unknown 250 ∧
      decode ⟨255, 0, 0, 0, 0, 0⟩ = .unknown 255 ∧ decode ⟨24, 0, 0, 0, 0, 0⟩ ≠ .unknown 24 ∧
      decode ⟨251, 0, 0, 0, 0, 0⟩ ≠ .unknown 251 := by decide

theorem witness_StepRunsTheDecodedCommand :
    Runs (ready (request 0x05 0xC8 0 0 0 0)) (.getVel .apply 0) := ⟨rfl, rfl, rfl, by decide⟩

theorem witness_UnknownIdIsANoOp :
    (ready (request 0x63 0xC8 1 2 3 4)).nextEvent = .foreground ∧ (ready (request 0x63 0xC8 1 2 3 4)).halted = false ∧
      (ready (request 0x63 0xC8 1 2 3 4)).pc = .exec ∧ decode (ready (request 0x63 0xC8 1 2 3 4)).packet = .unknown 0x63 :=
  ⟨rfl, rfl, rfl, by decide⟩

theorem witness_FetchedWordRunsNext : decodeTableWord 8 0xC8 = some (.deviceReset (.reserved 0) 0) := by decide

theorem witness_LimitQueriesAnswer : validParams busy.cfg = true := by decide

/-- An APPLY that updates, a NO_APPLY, and a restart command whose APPLY does not. -/
theorem witness_ApplyDecision :
    (Instr.getVel .apply 0).wf = true ∧ (∃ t, exec (.getVel .apply 0) State.reset = .next t ∧ t.pc = .snap) ∧
      (Instr.getVel .noApply 0).wf = true ∧ (∃ t, exec (.getVel .noApply 0) State.reset = .next t ∧ t.pc = .resp) ∧
      (Instr.deviceReset .apply 0).wf = true ∧
      (∃ t, exec (.deviceReset .apply 0) State.reset = .next t ∧ t.pc = .resp) :=
  ⟨rfl, ⟨_, rfl, rfl⟩, rfl, ⟨_, rfl, rfl⟩, rfl, ⟨_, rfl, rfl⟩⟩

theorem witness_RepeatedCommandChangesNothing :
    (∀ ctl x, Instr.setMode .noApply 1 0 ≠ .setZeroPos ctl x) ∧
      ∃ t u, exec (.setMode .noApply 1 0) State.reset = .next t ∧ exec (.setMode .noApply 1 0) t = .next u :=
  ⟨by simp, _, _, rfl, rfl⟩

theorem witness_AcceptCopiesTheRequest :
    ({ State.reset with agenda := [.accept ⟨3, 200, 0, 0, 0, 0⟩] } : State).nextEvent = .accept ⟨3, 200, 0, 0, 0, 0⟩ ∧
      State.reset.halted = false ∧ State.reset.pc = .idle ∧ ({ State.reset with pc := .resp } : State).pc ≠ .idle := by
  decide

/-- A response of each of the three kinds the phase after it depends on. -/
theorem witness_RespHandsOverTheResponse :
    ({ State.reset with agenda := [.respond], pc := .resp } : State).nextEvent = .respond ∧
      (({ State.reset with pc := .resp } : State).setPacket ⟨200, 201, 0, 0, 0, 0⟩).pktByte 0 = 200#8 ∧
      (({ State.reset with pc := .resp } : State).setPacket ⟨201, 201, 0, 0, 0, 0⟩).pktByte 0 = 201#8 ∧
      (({ State.reset with pc := .resp } : State).setPacket ⟨0, 2, 0, 0, 0, 0⟩).pktByte 0 = 0#8 := by decide

theorem witness_RequestsAreAnsweredInBoundedSteps : State.reset.pc = .idle ∧ State.reset.halted = false := by decide

theorem witness_PositionSnapshotComputesTargets :
    RunsPhase { travelling with pc := .snap } .snap ∧ travelling.mode = .position := ⟨⟨rfl, rfl, rfl⟩, rfl⟩

theorem witness_VelocitySnapshotComputesTargets :
    RunsPhase { moving with pc := .snap } .snap ∧ moving.mode = .velocity := ⟨⟨rfl, rfl, rfl⟩, rfl⟩

theorem witness_ApplyWritesTheLatches : RunsPhase { moving with pc := .apply } .apply := ⟨rfl, rfl, rfl⟩

theorem witness_UpdateGuarantees :
    ({ travelling with pc := .snap, agenda := [.foreground, .foreground] } : State).pc = .snap ∧
      travelling.halted = false ∧ travelling.mode = .position ∧ moving.mode = .velocity ∧
      State.reset.runStatus = .stopped := by decide

theorem witness_DividerRoundsHalfUpAndClamps : 0 < Params.ref.prescaler ∧ 0 < 6400 := by decide

/-- The two ends of the range. -/
theorem witness_AcceptedVelocitiesNeedNoClamp :
    validParams Params.ref = true ∧ minVelocity Params.ref ≤ 237 ∧ 237 ≤ maxVelocity Params.ref ∧
      minVelocity Params.ref ≤ 50000 ∧ 50000 ≤ maxVelocity Params.ref := by decide

theorem witness_DividerIsNonIncreasing : 0 < Params.ref.prescaler ∧ 0 < 237 ∧ 237 ≤ 238 := by decide

/-- Both directions of both equivalences. -/
theorem witness_LimitsAreTheEndsOfTheRange :
    0 < Params.ref.prescaler ∧ 50000 ≤ maxVelocity Params.ref ∧ ¬ 50001 ≤ maxVelocity Params.ref ∧
      minVelocity Params.ref ≤ 237 ∧ ¬ minVelocity Params.ref ≤ 236 := by decide

theorem witness_TickPulsesAndRaisesTheRequest :
    ({ moving with agenda := [.tick] } : State).nextEvent = .tick ∧ moving.halted = false := by decide

/-- With prescaler 2 and `timerTop` 3: eight cycles. -/
theorem witness_TimerPeriodInClockCycles :
    ({ State.reset with
        cfg := { Params.ref with prescaler := 2 }, timerTop := 3, agenda := List.replicate 8 .clock } : State).agenda =
        List.replicate (2 * (3 + 1)) .clock ++ [] ∧
      State.reset.halted = false ∧ State.reset.timerCount = 0 ∧ State.reset.prescaleCount = 0 := by decide

theorem witness_TimerTicksAtOrAboveTheTop :
    ({ moving with agenda := [.clock], prescaleCount := 7, timerCount := 1999 } : State).nextEvent = .clock ∧
      moving.halted = false := by decide

theorem witness_StepHandlerCountsAndStopsOnArrival :
    RunsStepHandler { travelling with position := 99, stepPending := true, agenda := [.stepIrq] } ∧
      RunsStepHandler { moving with stepPending := true, agenda := [.stepIrq] } := ⟨⟨rfl, rfl⟩, ⟨rfl, rfl⟩⟩

theorem witness_StopHandlerForcesStopped :
    RunsStopHandler { travelling with stopInterlockEnabled := .enabled, stopPending := true, agenda := [.stopIrq] } ∧
      RunsStopHandler { moving with stopInterlockEnabled := .enabled, stopPending := true, agenda := [.stopIrq] } ∧
      RunsStopHandler { moving with stopPending := true, agenda := [.stopIrq] } := ⟨⟨rfl, rfl⟩, ⟨rfl, rfl⟩, ⟨rfl, rfl⟩⟩

theorem witness_MaskedHandlersAreNotEntered :
    ({ moving with agenda := [.stepIrq] } : State).nextEvent = .stepIrq ∧ moving.stepPending = false ∧
      ({ moving with agenda := [.stopIrq] } : State).nextEvent = .stopIrq ∧ moving.stopPending = false := by decide

theorem witness_AssertingEdgeRaisesTheStopRequest :
    ({ moving with agenda := [.stopLevelChange true] } : State).nextEvent = .stopLevelChange true ∧
      moving.halted = false := by decide

/-- K6, K7. -/
theorem witness_HandlerOrdersDifferByOneCount :
    ∃ s : State, s.mode = .velocity ∧ s.runStatus = .running ∧ 0 < s.velocity.toNat ∧ s.stopInterlockEnabled = .enabled ∧
      s.ie = true ∧ s.halted = false ∧ s.stepPending = true ∧ s.stopPending = true :=
  ⟨{ moving with stopInterlockEnabled := .enabled, stepPending := true, stopPending := true }, by decide⟩

theorem witness_ResetRestoresTheTablesValues :
    ({ moving with agenda := [.reset true], halted := true } : State).nextEvent = .reset true := by decide

theorem witness_RestartActionsEmitAndReset :
    RunsPhase { moving with pc := .resetAct } .resetAct ∧ RunsPhase { moving with pc := .bootAct } .bootAct :=
  ⟨⟨rfl, rfl, rfl⟩, ⟨rfl, rfl, rfl⟩⟩

theorem witness_HaltedBlockIsFrozen :
    ({ moving with halted := true, agenda := [.tick] } : State).halted = true ∧
      ∀ level, ({ moving with halted := true, agenda := [.tick] } : State).nextEvent ≠ .reset level := by
  decide

theorem witness_EveryStepKeepsTheInvariants : BlockInv State.reset ∧ ∃ t, step State.reset = .next t :=
  ⟨reset_inv, _, rfl⟩

/-- A SET_STATUS RUNNING of an interlocked block, the case of R216. -/
theorem witness_InterlockKeepsStopped :
    ∃ s t : State, s.stopInterlockEnabled = .enabled ∧ s.stopLevel = s.cfg.stopActiveLevel ∧ s.runStatus = .stopped ∧
      step s = .next t ∧ Runs s (.setStatus .noApply 1 0) :=
  ⟨{ State.reset with stopInterlockEnabled := .enabled, stopLevel := true }.withFetchWord 48 (request 0x11 0xC9 1 0 0 0),
    _, rfl, rfl, rfl, rfl, rfl, rfl, rfl, by decide⟩

/-- A Reset of an interlocked block, the second clause. -/
theorem witness_InterlockKeepsStopped_reset :
    ∃ s t : State, s.stopInterlockEnabled = .enabled ∧ s.stopLevel = s.cfg.stopActiveLevel ∧ s.runStatus = .stopped ∧
      step s = .next t ∧ Resets s :=
  ⟨{ State.reset with stopInterlockEnabled := .enabled, stopLevel := true, agenda := [.reset true] },
    _, rfl, rfl, rfl, rfl, .inl ⟨_, rfl⟩⟩

theorem witness_OnlyTheTablesWritersWrite :
    ∃ s t : State, step s = .next t ∧ ¬ Resets s ∧ t.mode ≠ s.mode :=
  ⟨ready (request 0x08 0xC9 1 0 0 0), _, rfl, (by
    rintro (⟨_, h⟩ | ⟨_, _, h⟩ | ⟨_, _, h⟩) <;> cases h), (by decide)⟩

theorem witness_HistoryIsOnlyExtended : ∃ t, step { moving with agenda := [.tick] } = .next t := ⟨_, rfl⟩

/-- The last step of Scenario B, and the first step of a longer move in each direction. -/
theorem witness_PositionMoveStopsExactlyOnArrival :
    ({ travelling with position := 99, agenda := ticks 1 } : State).agenda = ticks 1 ++ [] ∧
      1 = (travelling.posSetpoint - 99#32).toNat ∧ 1 ≤ (travelling.posSetpoint - travelling.position).toNat ∧
      travelling.mode = .position ∧ travelling.runStatus = .running ∧ 0 < travelling.velocity.toNat ∧
      travelling.outputEnabled = true ∧ travelling.ie = true ∧ travelling.halted = false ∧ travelling.direction = .positive ∧
      ({ travelling with direction := .negative, position := 102 } : State).direction = .negative ∧
      1 ≤ (102#32 - travelling.posSetpoint).toNat := by decide

theorem witness_CountsEqualPulsesWithoutOverrun :
    (∀ e ∈ [Event.clock, .stepIrq, .tick, .stepIrq], e = .tick ∨ e = .clock ∨ e = .stepIrq) ∧
      ({ moving with agenda := [.clock, .stepIrq, .tick, .stepIrq], prescaleCount := 7, timerCount := 1999 } : State).agenda =
        [.clock, .stepIrq, .tick, .stepIrq] ++ [] ∧
      noOverrun false 4 { moving with
        agenda := [.clock, .stepIrq, .tick, .stepIrq], prescaleCount := 7, timerCount := 1999 } = true ∧ moving.mode = .velocity ∧ moving.runStatus = .running ∧
      0 < moving.velocity.toNat ∧ moving.outputEnabled = true ∧ moving.ie = true ∧ moving.halted = false ∧
      moving.stepPending = false := by decide

/-- Program P4's situation. -/
theorem witness_StaleApplyAfterArrival :
    ∃ s : State, validParams s.cfg = true ∧ s.mode = .position ∧ s.runStatus = .running ∧ s.direction = .positive ∧
      s.posSetpoint = s.position + 1 ∧ 0 < s.velocity.toNat ∧ minVelocity s.cfg ≤ s.travelVelocity.toNat ∧ s.ie = true ∧
      s.halted = false ∧ s.pc = .snap ∧ s.agenda = [.foreground, .tick, .stepIrq, .foreground] :=
  ⟨{ travelling with position := 99, pc := .snap, agenda := [.foreground, .tick, .stepIrq, .foreground] }, by decide⟩

/-- Program P5's situation. -/
theorem witness_StaleApplyAfterStop :
    ∃ s : State, validParams s.cfg = true ∧ s.mode = .velocity ∧ s.runStatus = .running ∧
      minVelocity s.cfg ≤ s.velSetpoint.toNat ∧ s.stopInterlockEnabled = .enabled ∧
      s.stopLevel ≠ s.cfg.stopActiveLevel ∧ s.ie = true ∧ s.halted = false ∧ s.pc = .snap ∧
      s.agenda = [.foreground, .stopLevelChange s.cfg.stopActiveLevel, .stopIrq, .foreground] :=
  ⟨{ moving with
      stopInterlockEnabled := .enabled, pc := .snap
      agenda := [.foreground, .stopLevelChange true, .stopIrq, .foreground] }, by decide⟩

/-- HZ1's command. -/
theorem witness_StoppedWithoutApplyKeepsPulsing :
    ∃ s : State, s.pc = .exec ∧ s.halted = false ∧ s.ie = true ∧ decode s.packet = .command (.setStatus .noApply 0 0) ∧
      0 = s.cfg.enc.runStopped ∧ s.outputEnabled = true ∧ s.agenda = [.foreground, .tick, .stepIrq] :=
  ⟨{ moving with agenda := [.tick, .stepIrq] }.withFetchWord 48 (request 0x11 0xC9 0 0 0 0), by decide⟩

/-- HZ3's situation: a new direction, and a new velocity of 0. -/
theorem witness_ApplyBetweenTickAndHandlerMiscounts :
    ∃ s : State, s.mode = .velocity ∧ s.runStatus = .running ∧ s.outputEnabled = true ∧ s.ie = true ∧ s.halted = false ∧
      s.pc = .apply ∧ s.agenda = [.tick, .foreground, .stepIrq] ∧ s.latches.tgtVelocity ≠ 0 ∧
      s.latches.tgtDirection ≠ s.direction :=
  ⟨{ moving with
      pc := .apply, latches := ⟨1000, .negative, true, .drive true, .velocity⟩
      agenda := [.tick, .foreground, .stepIrq] }, by decide⟩

/-- HZ2. -/
theorem witness_OverrunLosesACount :
    ∃ s : State, s.mode = .velocity ∧ s.runStatus = .running ∧ 0 < s.velocity.toNat ∧ s.outputEnabled = true ∧
      s.ie = true ∧ s.halted = false ∧ s.agenda = [.tick, .tick, .stepIrq] :=
  ⟨{ moving with agenda := [.tick, .tick, .stepIrq] }, by decide⟩

end Sys2Proof.Tests
end

section
/-! PROOFS. What one step can do, said once (00_scope.md R5, R6): the cases of a step, from which the rules of the
whole machine in 10_state.md are derived. -/

namespace Sys2Proof.Machine

theorem Event.isReset_iff (e : Event) : e.isReset = true ↔ ∃ level, e = .reset level := by
  cases e <;> simp [Event.isReset]

/-- R38: a halted block spends every event that is no Reset. -/
theorem step_of_halted {s : State} (hh : s.halted = true) (hr : s.nextEvent.isReset = false) :
    step s = .next s.afterNext := by
  have hh' : s.afterNext.halted = true := hh
  rw [step_eq_perform, perform, hh', hr]
  rfl

/-- R241: a Reset acts whether the block is halted or not. -/
theorem step_of_reset {s : State} {level : Bool} (h : s.nextEvent = .reset level) :
    step s = .next (resetBlock level s.afterNext) := by
  rw [step_eq_perform, h, perform, Event.isReset, Bool.not_true, Bool.and_false]
  rfl

/-- One step of the machine, case by case: what the step makes of the state without its event, and the guard under which
an enabled event acts. -/
inductive StepsTo (s : State) : State → Prop where
  /-- The event is not enabled, or the foreground waits on the transport (log 4). -/
  | spent : StepsTo s s.afterNext
  | command {i : Instr} {t : State} (h : Runs s i) (e : exec i s.afterNext = .next t) : StepsTo s t
  | unknown {id : Byte} (h : RunsPhase s .exec) (hd : decode s.packet = .unknown id) :
      StepsTo s (s.afterNext.setPc .resp)
  | snap (h : RunsPhase s .snap) : StepsTo s (snapTransaction s.afterNext)
  | apply (h : RunsPhase s .apply) : StepsTo s (applyTransaction s.afterNext)
  | resetAct (h : RunsPhase s .resetAct) : StepsTo s (resetAction s.afterNext)
  | bootAct (h : RunsPhase s .bootAct) : StepsTo s (bootAction s.afterNext)
  | accept {p : Packet} (he : s.nextEvent = .accept p) (hh : s.halted = false) (hp : s.pc = .idle) :
      StepsTo s (acceptRequest p s.afterNext)
  | respond (he : s.nextEvent = .respond) (hh : s.halted = false) (hp : s.pc = .resp) :
      StepsTo s (handOver s.afterNext)
  | tick (he : s.nextEvent = .tick) (hh : s.halted = false) : StepsTo s (tick s.afterNext)
  | clock (he : s.nextEvent = .clock) (hh : s.halted = false) : StepsTo s (clockCycle s.afterNext)
  | stopLevelChange {level : Bool} (he : s.nextEvent = .stopLevelChange level) (hh : s.halted = false) :
      StepsTo s (stopLevelChange level s.afterNext)
  | stepHandler (h : RunsStepHandler s) : StepsTo s (stepHandler s.afterNext)
  | stopHandler (h : RunsStopHandler s) : StepsTo s (stopHandler s.afterNext)
  | reset {level : Bool} (he : s.nextEvent = .reset level) : StepsTo s (resetBlock level s.afterNext)

theorem reqReady_iff (s : State) : s.reqReady = true ↔ s.pc = .idle ∧ s.halted = false := by simp [State.reqReady]

theorem respValid_iff (s : State) : s.respValid = true ↔ s.pc = .resp := by simp [State.respValid]

/-- The foreground's own transactions (R131). -/
theorem stepsTo_of_foreground {s t : State} (he : s.nextEvent = .foreground) (hh : s.halted = false)
    (e : foreground s.afterNext = .next t) : StepsTo s t := by
  rcases foreground_cases e with ⟨rfl, -⟩ | ⟨hp, i, hd, hi⟩ | ⟨hp, ⟨id, hd⟩, rfl⟩ |
    ⟨hp, rfl⟩ | ⟨hp, rfl⟩ | ⟨hp, rfl⟩ | ⟨hp, rfl⟩
  · exact .spent
  · exact .command ⟨he, hh, hp, hd⟩ hi
  · exact .unknown ⟨he, hh, hp⟩ hd
  · exact .snap ⟨he, hh, hp⟩
  · exact .apply ⟨he, hh, hp⟩
  · exact .resetAct ⟨he, hh, hp⟩
  · exact .bootAct ⟨he, hh, hp⟩

/-- R204, log 4: a handler that may not be entered leaves everything as it was. -/
theorem tryHandler_of_not_canTake {src : IrqSource} {s : State} (h : s.canTake src = false) : tryHandler src s = s := by
  simp [tryHandler, h]

theorem stepsTo_of_stepIrq {s : State} (he : s.nextEvent = .stepIrq) : StepsTo s (tryHandler .step s.afterNext) := by
  cases hc : s.canTake .step with
  | true =>
    rw [tryHandler_step (s := s.afterNext) hc]
    exact .stepHandler ⟨he, hc⟩
  | false =>
    rw [tryHandler_of_not_canTake (src := .step) (s := s.afterNext) hc]
    exact .spent

theorem stepsTo_of_stopIrq {s : State} (he : s.nextEvent = .stopIrq) : StepsTo s (tryHandler .stop s.afterNext) := by
  cases hc : s.canTake .stop with
  | true =>
    rw [tryHandler_stop (s := s.afterNext) hc]
    exact .stopHandler ⟨he, hc⟩
  | false =>
    rw [tryHandler_of_not_canTake (src := .stop) (s := s.afterNext) hc]
    exact .spent

/-- What an event does to a block that is not halted. -/
theorem stepsTo_of_performActive {s t : State} {e : Event} (he : s.nextEvent = e) (hh : s.halted = false)
    (ht : performActive e s.afterNext = .next t) : StepsTo s t := by
  cases e with
  | foreground => exact stepsTo_of_foreground he hh ht
  | accept p =>
    cases ht
    split
    · next hr => exact .accept he hh ((reqReady_iff s).1 hr).1
    · exact .spent
  | respond =>
    cases ht
    split
    · next hv => exact .respond he hh ((respValid_iff s).1 hv)
    · exact .spent
  | tick =>
    cases ht
    exact .tick he hh
  | clock =>
    cases ht
    exact .clock he hh
  | stopLevelChange level =>
    cases ht
    exact .stopLevelChange he hh
  | stepIrq =>
    cases ht
    exact stepsTo_of_stepIrq he
  | stopIrq =>
    cases ht
    exact stepsTo_of_stopIrq he
  | reset level =>
    cases ht
    exact .reset he

/-- Every step is one of the cases. -/
theorem stepsTo_of_step {s t : State} (e : step s = .next t) : StepsTo s t := by
  cases hh : s.halted with
  | false => exact stepsTo_of_performActive rfl hh ((step_of_running hh).symm.trans e)
  | true =>
    cases hr : s.nextEvent.isReset with
    | false =>
      rw [step_of_halted hh hr] at e
      cases e
      exact .spent
    | true =>
      obtain ⟨level, hl⟩ := (Event.isReset_iff _).1 hr
      rw [step_of_reset hl] at e
      cases e
      exact .reset hl

theorem RunsPhase.moves {s : State} {p : Phase} (h : RunsPhase s p) : ForegroundMoves s :=
  ⟨congrArg Event.isForeground h.1, h.2.1⟩

theorem Runs.phase {s : State} {i : Instr} (h : Runs s i) : RunsPhase s .exec := ⟨h.1, h.2.1, h.2.2.1⟩

/-- One cycle of `clk` (R256): the prescale counter, the timer's count, or the Tick. -/
theorem clockCycle_eq (s : State) :
    clockCycle s =
      if s.prescaleCount + 1 < s.cfg.prescaler then { s with prescaleCount := s.prescaleCount + 1 }
      else if s.timerCount < s.timerTop then { s with prescaleCount := 0, timerCount := s.timerCount + 1 }
      else tick { s with prescaleCount := 0, timerCount := 0 } := by
  split_ifs with hp hc
  · exact clockCycle_of_not_last hp
  · exact clockCycle_of_count (Nat.not_lt.1 hp) hc
  · exact clockCycle_of_tick (Nat.not_lt.1 hp) (Nat.not_lt.1 hc)

end Sys2Proof.Machine

open Sys2Proof.Machine in
/-- Settles O45, register by register: the reset state is made of the table of R39. -/
theorem resetStateHasTheTablesValues : Obligations.ResetStateHasTheTablesValues := by
  unfold Obligations.ResetStateHasTheTablesValues
  refine ⟨?_, rfl, rfl⟩
  constructor <;> rfl

open Sys2Proof.Machine in
/-- Settles O48: an event that is no Reset is spent by a halted block. -/
theorem haltedBlockIsFrozen : Obligations.HaltedBlockIsFrozen := by
  intro s hh hr
  refine step_of_halted hh (Bool.eq_false_iff.2 fun h => ?_)
  obtain ⟨level, hl⟩ := (Event.isReset_iff _).1 h
  exact hr level hl
end

section
/-! PROOFS. The history and the parameters over every step (10_state.md R36, R43; log 1). -/

namespace Sys2Proof.Machine

/-- The history of `t` is that of `s` with new events at its end, and the parameters are those of `s`. -/
def ExtendsHistory (s t : State) : Prop := (∃ new, t.history = s.history ++ new) ∧ t.cfg = s.cfg

theorem ExtendsHistory.of_same {s t : State} (hh : t.history = s.history) (hc : t.cfg = s.cfg) : ExtendsHistory s t :=
  ⟨⟨[], by rw [hh, List.append_nil]⟩, hc⟩

theorem ExtendsHistory.of_emit {s t : State} {e : OutputEvent} (hh : t.history = s.history ++ [e])
    (hc : t.cfg = s.cfg) : ExtendsHistory s t := ⟨⟨[e], hh⟩, hc⟩

theorem tick_extendsHistory (s : State) : ExtendsHistory s (tick s) := by
  rw [tick_eq]
  split_ifs
  · exact .of_emit rfl rfl
  · exact .of_same rfl rfl

theorem clockCycle_extendsHistory (s : State) : ExtendsHistory s (clockCycle s) := by
  rw [clockCycle_eq]
  split_ifs
  · exact .of_same rfl rfl
  · exact .of_same rfl rfl
  · exact tick_extendsHistory { s with prescaleCount := 0, timerCount := 0 }

theorem stepHandler_extendsHistory (s : State) : ExtendsHistory s (stepHandler s) := by
  rw [stepHandler_eq]
  split_ifs <;> exact .of_same rfl rfl

theorem stopHandler_extendsHistory (s : State) : ExtendsHistory s (stopHandler s) := by
  rw [stopHandler_eq]
  split_ifs <;> exact .of_same rfl rfl

theorem StepsTo.extendsHistory {s t : State} (h : StepsTo s t) : ExtendsHistory s t := by
  cases h with
  | spent => exact .of_same rfl rfl
  | command hr e => exact .of_same (exec_keeps e).history (exec_keeps e).cfg
  | unknown hr hd => exact .of_same rfl rfl
  | snap hr => exact .of_same rfl rfl
  | apply hr => exact .of_same rfl rfl
  | resetAct hr => exact .of_emit rfl rfl
  | bootAct hr => exact .of_emit rfl rfl
  | accept he hh hp => exact .of_same rfl rfl
  | respond he hh hp =>
    rw [handOver_eq]
    exact .of_emit rfl rfl
  | tick he hh => exact tick_extendsHistory s.afterNext
  | clock he hh => exact clockCycle_extendsHistory s.afterNext
  | stopLevelChange he hh =>
    rw [stopLevelChange_eq]
    exact .of_same rfl rfl
  | stepHandler hr => exact stepHandler_extendsHistory s.afterNext
  | stopHandler hr => exact stopHandler_extendsHistory s.afterNext
  | reset he => exact .of_same rfl rfl

end Sys2Proof.Machine

open Sys2Proof.Machine in
/-- Settles O53, by the cases of a step: each leaves the history or puts one event at its end. -/
theorem historyIsOnlyExtended : Obligations.HistoryIsOnlyExtended := fun _ _ e => (stepsTo_of_step e).extendsHistory
end

section
/-! PROOFS. The writers table of 10_state.md R41 over every step that is no Reset: what each case of a step writes, in
a step that otherwise writes nothing. -/

namespace Sys2Proof.Machine

theorem writersRespected_afterNext (s : State) : WritersRespected s s.afterNext := by
  constructor
  case halted => rfl
  case counters =>
    rintro (h | h)
    · exact absurd rfl h
    · exact absurd rfl h
  all_goals exact fun h => absurd rfl h

/-- The foreground may write `pkt` and `pc`; the two other fields here have no row. -/
theorem writersRespected_of_moves {s : State} (h : ForegroundMoves s) (m : Memory) (p : Phase) (n : Nat)
    (out : List OutputEvent) :
    WritersRespected s { s.afterNext with pkt := m, pc := p, draws := n, history := out } :=
  { writersRespected_afterNext s with pc := fun _ => h, pkt := fun _ => h }

/-- The rows of the commands (R176). -/
theorem writersRespected_command {s t : State} {i : Instr} (hr : Runs s i) (e : exec i s.afterNext = .next t) :
    WritersRespected s t := by
  have hw : OnlyAnswerDiffers (written i s.afterNext) t := (exec_leaves_of_next e).registers
  have hk : CommandKeeps s.afterNext (written i s.afterNext) := written_keeps i s.afterNext
  rw [OnlyAnswerDiffers] at hw
  rw [hw]
  exact
    { mode := fun hne => by
        obtain ⟨c, b, r, rfl⟩ := (written_mode i s.afterNext).resolve_left hne
        exact ⟨c, b, r, hr⟩
      position := fun hne => by
        obtain ⟨c, v, rfl⟩ := (written_position i s.afterNext).resolve_left hne
        exact .inl ⟨c, v, hr⟩
      posSetpoint := fun hne => by
        obtain ⟨c, v, rfl⟩ | ⟨c, v, rfl⟩ := (written_posSetpoint i s.afterNext).resolve_left hne
        · exact .inl ⟨c, v, hr⟩
        · exact .inr (.inl ⟨c, v, hr⟩)
      travelVelocity := fun hne => by
        obtain ⟨c, v, r, rfl⟩ := (written_travelVelocity i s.afterNext).resolve_left hne
        exact ⟨c, v, r, hr⟩
      velSetpoint := fun hne => by
        obtain ⟨c, v, r, rfl⟩ := (written_velSetpoint i s.afterNext).resolve_left hne
        exact .inl ⟨c, v, r, hr⟩
      dirSetpoint := fun hne => by
        obtain ⟨c, b, r, rfl⟩ := (written_dirSetpoint i s.afterNext).resolve_left hne
        exact ⟨c, b, r, hr⟩
      runStatus := fun hne => by
        obtain ⟨c, b, r, rfl⟩ := (written_runStatus i s.afterNext).resolve_left hne
        exact .inl ⟨c, b, r, hr⟩
      enable := fun hne => by
        obtain ⟨c, b, r, rfl⟩ := (written_enable i s.afterNext).resolve_left hne
        exact ⟨c, b, r, hr⟩
      stopInterlockEnabled := fun hne => by
        obtain ⟨c, b, r, rfl⟩ := (written_stopInterlockEnabled i s.afterNext).resolve_left hne
        exact ⟨c, b, r, hr⟩
      dio := fun hne => by
        obtain ⟨c, b, r, rfl⟩ | ⟨c, b, r, rfl⟩ := (written_dio i s.afterNext).resolve_left hne
        · exact .inl ⟨c, b, r, hr⟩
        · exact .inr ⟨c, b, r, hr⟩
      stopPending := fun hne => by
        obtain ⟨⟨c, b, r, rfl⟩, hp⟩ := (written_stopPending i s.afterNext).resolve_left hne
        exact .inr (.inr ⟨⟨c, b, r, hr⟩, hp⟩)
      pc := fun _ => hr.phase.moves
      pkt := fun _ => hr.phase.moves
      direction := fun hne => absurd hk.direction hne
      velocity := fun hne => absurd hk.velocity hne
      timerTop := fun hne => absurd hk.timerTop hne
      outputEnabled := fun hne => absurd hk.outputEnabled hne
      trigger := fun hne => absurd hk.trigger hne
      stepPending := fun hne => absurd hk.stepPending hne
      latches := fun hne => absurd hk.latches hne
      stopLevel := fun hne => absurd hk.stopLevel hne
      halted := hk.halted
      counters := fun hne => hne.elim (absurd hk.timerCount) (absurd hk.prescaleCount) }

/-- The rows of the foreground's apply (R121). -/
theorem writersRespected_apply {s : State} (h : RunsPhase s .apply) :
    WritersRespected s (applyTransaction s.afterNext) := by
  have hkeep : s.latches.tgtTrigger = .keep → s.latches.tgtTrigger.apply s.trigger = s.trigger := fun hk => by
    rw [hk]
    rfl
  rw [applyTransaction_eq]
  exact
    { writersRespected_of_moves h.moves s.pkt .resp s.draws s.history with
      direction := fun _ => .inl h
      velocity := fun _ => .inl (.inl h)
      timerTop := fun _ => .inl h
      outputEnabled := fun _ => .inl (.inl h)
      trigger := fun hne => .inl ⟨h, fun hk => hne (hkeep hk)⟩ }

theorem writersRespected_tick {s : State} (h : s.nextEvent = .tick) : WritersRespected s (tick s.afterNext) := by
  rw [tick_eq]
  exact { writersRespected_afterNext s with stepPending := fun _ => .inl h }

theorem writersRespected_clock {s : State} (h : s.nextEvent = .clock) :
    WritersRespected s (clockCycle s.afterNext) := by
  rw [clockCycle_eq]
  split_ifs
  · exact { writersRespected_afterNext s with counters := fun _ => h }
  · exact { writersRespected_afterNext s with counters := fun _ => h }
  · rw [tick_eq]
    exact { writersRespected_afterNext s with counters := fun _ => h, stepPending := fun _ => .inr (.inl h) }

theorem writersRespected_stopLevelChange {s : State} {level : Bool} (h : s.nextEvent = .stopLevelChange level) :
    WritersRespected s (stopLevelChange level s.afterNext) := by
  rw [stopLevelChange_eq]
  exact { writersRespected_afterNext s with stopLevel := fun _ => h, stopPending := fun _ => .inl ⟨level, h⟩ }

theorem countOne_eq_or (d : Direction) (x : Word) : countOne d x = x + 1 ∨ countOne d x = x - 1 := by
  cases d with
  | positive => exact .inl rfl
  | negative => exact .inr rfl

/-- The rows of the step handler (R207): arrived, counted, or nothing but the request served. -/
theorem writersRespected_stepHandler {s : State} (h : RunsStepHandler s) :
    WritersRespected s (stepHandler s.afterNext) := by
  have served : WritersRespected s { s.afterNext with stepPending := false } :=
    { writersRespected_afterNext s with stepPending := fun _ => .inr (.inr ⟨h, rfl⟩) }
  have counted := countOne_eq_or s.direction s.position
  rw [stepHandler_eq]
  split_ifs
  · exact
      { served with
        position := fun _ => .inr ⟨h, counted⟩
        velocity := fun _ => .inr ⟨h, rfl⟩
        outputEnabled := fun _ => .inr ⟨h, rfl⟩ }
  · exact { served with position := fun _ => .inr ⟨h, counted⟩ }
  · exact { served with }

/-- The rows of the stop handler (R210): stopped in either mode, or nothing but the request served. -/
theorem writersRespected_stopHandler {s : State} (h : RunsStopHandler s) :
    WritersRespected s (stopHandler s.afterNext) := by
  have served : WritersRespected s { s.afterNext with stopPending := false } :=
    { writersRespected_afterNext s with stopPending := fun _ => .inr (.inl ⟨h, rfl⟩) }
  rw [stopHandler_eq]
  split_ifs with hi hm
  · exact
      { served with
        runStatus := fun _ => .inr ⟨h, rfl⟩
        posSetpoint := fun _ => .inr (.inr ⟨h, hm, rfl⟩)
        direction := fun _ => .inr h
        velocity := fun _ => .inl (.inr h)
        outputEnabled := fun _ => .inl (.inr h) }
  · have hv : s.mode = .velocity := mode_velocity_of_ne hm
    exact
      { served with
        runStatus := fun _ => .inr ⟨h, rfl⟩
        velSetpoint := fun _ => .inr ⟨h, hv, rfl⟩
        direction := fun _ => .inr h
        velocity := fun _ => .inl (.inr h)
        outputEnabled := fun _ => .inl (.inr h)
        trigger := fun _ => .inr ⟨h, hv⟩ }
  · exact { served with }

theorem StepsTo.writersRespected {s t : State} (h : StepsTo s t) (hn : ¬ Resets s) : WritersRespected s t := by
  cases h with
  | spent => exact writersRespected_afterNext s
  | command hr e => exact writersRespected_command hr e
  | unknown hr hd => exact writersRespected_of_moves hr.moves s.pkt .resp s.draws s.history
  | snap hr => exact { writersRespected_of_moves hr.moves s.pkt .apply s.draws s.history with latches := fun _ => hr }
  | apply hr => exact writersRespected_apply hr
  | resetAct hr => exact absurd (.inr (.inl hr)) hn
  | bootAct hr => exact absurd (.inr (.inr hr)) hn
  | accept he hh hp =>
    exact writersRespected_of_moves ⟨congrArg Event.isForeground he, hh⟩ _ .exec s.draws s.history
  | respond he hh hp =>
    exact writersRespected_of_moves ⟨congrArg Event.isForeground he, hh⟩ s.pkt _ s.draws _
  | tick he hh => exact writersRespected_tick he
  | clock he hh => exact writersRespected_clock he
  | stopLevelChange he hh => exact writersRespected_stopLevelChange he
  | stepHandler hr => exact writersRespected_stepHandler hr
  | stopHandler hr => exact writersRespected_stopHandler hr
  | reset he => exact absurd (.inl ⟨_, he⟩) hn

end Sys2Proof.Machine

open Sys2Proof.Machine in
/-- Settles O52, by the cases of a step: each changes only registers whose rows name it. -/
theorem onlyTheTablesWritersWrite : Obligations.OnlyTheTablesWritersWrite :=
  fun _ _ e hn => (stepsTo_of_step e).writersRespected hn
end

section
/-! PROOFS. The invariants of 10_state.md R40 over every step (R216, 44_cmd_set.md R176, 20_memory.md R58): what each
case of a step does to a state that meets BlockInv. -/

namespace Sys2Proof.Machine

/-! ### Parameters -/

theorem timerTopMin_le_of_valid {p : Params} (h : validParams p = true) : p.timerTopMin ≤ p.timerTopMax := by
  simp only [validParams, Bool.and_eq_true, decide_eq_true_eq] at h
  omega

theorem minVelocity_pos_of_valid {p : Params} (h : validParams p = true) : 1 ≤ minVelocity p := by
  simp only [validParams, Bool.and_eq_true, decide_eq_true_eq] at h
  omega

/-- R97: the clamp keeps the divider's answer in the timer's range. -/
theorem configurePulseRate_in_range {p : Params} (h : p.timerTopMin ≤ p.timerTopMax) (v : Nat) :
    p.timerTopMin ≤ configurePulseRate p v ∧ configurePulseRate p v ≤ p.timerTopMax := by
  rw [configurePulseRate]
  split_ifs
  · exact ⟨h, le_rfl⟩
  · omega

theorem clampVelocity_le (p : Params) (v : Half) : (clampVelocity p v).toNat ≤ maxVelocity p := by
  rw [clampVelocity_toNat]
  exact min_le_right ..

/-! ### Targets (R118, R119) -/

/-- What BlockInv asks of the latches before an apply, of any targets. -/
def TargetsFit (p : Params) (l : Latches) : Prop :=
  (l.tgtOutput = true ↔ 0 < l.tgtVelocity.toNat) ∧
    (l.tgtVelocity.toNat = 0 ∨ minVelocity p ≤ l.tgtVelocity.toNat) ∧ l.tgtVelocity.toNat ≤ maxVelocity p

theorem latchesFit_iff (s : State) : LatchesFit s ↔ (s.pc = .apply → TargetsFit s.cfg s.latches) := Iff.rfl

/-- Both procedures close the gate at velocity 0, or open it at a bounded velocity of at least the floor. -/
theorem targetsFit_of_moves {p : Params} {v : Half} {moves : Bool} {l : Latches} (hp : validParams p = true)
    (hv : v.toNat ≤ maxVelocity p) (hfloor : moves = true → minVelocity p ≤ v.toNat)
    (hvel : l.tgtVelocity = if moves then v else 0) (hout : l.tgtOutput = moves) : TargetsFit p l := by
  have hpos := minVelocity_pos_of_valid hp
  rw [TargetsFit, hvel, hout]
  cases moves with
  | false => simp
  | true =>
    have hf := hfloor rfl
    exact ⟨iff_of_true rfl (by simp only [if_true]; omega), .inr hf, hv⟩

theorem modeTargets_fit {s : State} (h : BlockInv s) : TargetsFit s.cfg (modeTargets s) := by
  obtain ⟨-, hset, htravel⟩ := h.velocities
  rw [modeTargets]
  split
  · refine targetsFit_of_moves h.parameters htravel (fun hm => ?_) rfl rfl
    simp only [Bool.and_eq_true, decide_eq_true_eq] at hm
    exact hm.2
  · refine targetsFit_of_moves h.parameters hset (fun hm => ?_) rfl rfl
    simp only [Bool.and_eq_true, decide_eq_true_eq] at hm
    exact hm.2

/-! ### The state after reset -/

/-- The constraint on the reset values (R7) makes the state of them meet the invariants, for any parameters. -/
theorem ofResets_inv {p : Params} (hp : validParams p = true) (hr : validResets p = true) :
    BlockInv (State.ofResets p) := by
  obtain ⟨hvel, hgate, hfloor, htop, hreq, hlock, hie, hpc, hcount⟩ := (validResets_iff p).1 hr
  exact
    { parameters := hp, velocities := hvel, gate := hgate, floor := hfloor, timerTop := htop, stopRequest := hreq
      interlock := fun he _ hn => hlock he hn, interrupts := hie, latches := fun ha => absurd ha hpc
      counters := hcount, buffer := Memory.wf_empty, resets := hr }

/-! ### Each case of a step -/

namespace BlockInv

theorem afterNext {s : State} (h : BlockInv s) : BlockInv s.afterNext := { h with }

/-- The foreground's bookkeeping: a canonical buffer and a phase that is no apply. -/
theorem answer {s : State} (h : BlockInv s) {m : Memory} {p : Phase} (hm : Memory.wf m = true) (hp : p ≠ .apply)
    (n : Nat) (out : List OutputEvent) : BlockInv { s with pkt := m, pc := p, draws := n, history := out } :=
  { h with latches := fun ha => absurd ha hp, buffer := hm }

/-- R172: RUNNING is refused where the interlock holds the block. -/
theorem writeRunStatus {s : State} (h : BlockInv s) (b : Byte) : BlockInv (writeRunStatus b s) := by
  rw [writeRunStatus_eq]
  refine { h with interlock := fun he hl hp => ?_ }
  have hs : s.runStatus = .stopped := h.interlock he hl hp
  have hheld : s.stopInterlockEnabled = .enabled ∧ s.stopLevel = s.cfg.stopActiveLevel := ⟨he, hl⟩
  simp [hs, hheld]

/-- R174: the interlock is enabled only while the stop condition is not asserted, and dropped with its request. -/
theorem writeInterlock {s : State} (h : BlockInv s) (b : Byte) : BlockInv (writeInterlock b s) := by
  rw [writeInterlock_eq]
  split_ifs with hd he hl
  · exact { h with stopRequest := fun hp => Bool.noConfusion hp, interlock := fun hi => nomatch hi }
  · exact { h with }
  · exact { h with stopRequest := fun _ => rfl, interlock := fun _ ha => absurd ha hl }
  · exact { h with }

/-- The register writes of a command (R176): only the two clamped velocities, `runStatus` and the interlock matter. -/
theorem written {s : State} (h : BlockInv s) (i : Instr) : BlockInv (written i s) := by
  obtain ⟨hvel, hset, htravel⟩ := h.velocities
  cases i with
  | setVelSetpt c v r => exact { h with velocities := ⟨hvel, clampVelocity_le s.cfg v, htravel⟩ }
  | setPosVel c v r => exact { h with velocities := ⟨hvel, hset, clampVelocity_le s.cfg v⟩ }
  | setStatus c b r => exact h.writeRunStatus b
  | setExtInt c b r => exact h.writeInterlock b
  | _ => exact { h with }

theorem exec {s t : State} {i : Instr} (h : BlockInv s) (e : exec i s = .next t) : BlockInv t := by
  have hl : ExecLeaves i s t := exec_leaves_of_next e
  have hpc : t.pc ≠ .apply := by
    rw [hl.phase, phaseAfterExec]
    split_ifs <;> exact nofun
  have ht : t = { Machine.written i s with pkt := t.pkt, pc := t.pc, draws := t.draws } := hl.registers
  rw [ht]
  exact (h.written i).answer (hl.buffer h.buffer) hpc t.draws (Machine.written i s).history

theorem snap {s : State} (h : BlockInv s) : BlockInv (snapTransaction s) := by
  rw [snapTransaction_eq]
  exact { h with latches := fun _ => modeTargets_fit h }

/-- R121: an apply of fitting latches, stale or not. -/
theorem apply {s : State} (h : BlockInv s) (hpc : s.pc = .apply) : BlockInv (applyTransaction s) := by
  obtain ⟨hgate, hfloor, hmax⟩ := h.latches hpc
  obtain ⟨-, hset, htravel⟩ := h.velocities
  have htop : s.cfg.timerTopMin ≤ (applyTransaction s).timerTop ∧
      (applyTransaction s).timerTop ≤ s.cfg.timerTopMax := by
    rw [applyTransaction_eq]
    dsimp only
    split_ifs
    · exact configurePulseRate_in_range (timerTopMin_le_of_valid h.parameters) _
    · exact h.timerTop
  exact
    { h with
      velocities := ⟨hmax, hset, htravel⟩, gate := hgate, floor := hfloor, timerTop := htop, latches := nofun }

theorem tick {s : State} (h : BlockInv s) : BlockInv (tick s) := by
  rw [tick_eq]
  exact { h with }

/-- R256: a count stays at or below `timerTop`, which is in its range. -/
theorem clock {s : State} (h : BlockInv s) : BlockInv (clockCycle s) := by
  obtain ⟨hcount, hpre⟩ := h.counters
  have hzero : 0 < s.cfg.prescaler := Nat.zero_lt_of_lt hpre
  rw [clockCycle_eq]
  split_ifs with hp hc
  · exact { h with counters := ⟨hcount, hp⟩ }
  · exact { h with counters := ⟨hc.trans_le h.timerTop.2, hzero⟩ }
  · exact tick { h with counters := ⟨Nat.zero_le _, hzero⟩ }

/-- R209: an assertion under an enabled interlock raises the request, so the interlock is not yet served. -/
theorem stopLevelChange {s : State} (h : BlockInv s) (level : Bool) : BlockInv (stopLevelChange level s) := by
  rw [stopLevelChange_eq]
  split_ifs with hedge
  · exact { h with stopRequest := fun _ => hedge.2.2, interlock := fun _ _ hp => Bool.noConfusion hp }
  · refine { h with interlock := fun he hl hp => h.interlock he ?_ hp }
    by_contra hne
    exact hedge ⟨hne, hl, he⟩

/-- A stopped motor: velocity 0 with the gate closed. -/
theorem stopMotor {s : State} (h : BlockInv s) : BlockInv { s with velocity := 0, outputEnabled := false } :=
  { h with
    velocities := ⟨Nat.zero_le _, h.velocities.2⟩
    gate := iff_of_false Bool.false_ne_true (Nat.lt_irrefl 0)
    floor := .inl rfl }

theorem stepHandler {s : State} (h : BlockInv s) : BlockInv (stepHandler s) := by
  rw [stepHandler_eq]
  split_ifs
  · exact { h.stopMotor with interrupts := rfl }
  · exact { h with interrupts := rfl }
  · exact { h with interrupts := rfl }

/-- R210: under an enabled interlock the motor stops; otherwise a served request leaves the interlock disabled. -/
theorem stopHandler {s : State} (h : BlockInv s) : BlockInv (stopHandler s) := by
  obtain ⟨-, -, htravel⟩ := h.velocities
  rw [stopHandler_eq]
  split_ifs with hi hm
  · exact { h.stopMotor with stopRequest := nofun, interlock := fun _ _ _ => rfl, interrupts := rfl }
  · exact
      { h.stopMotor with
        velocities := ⟨Nat.zero_le _, Nat.zero_le _, htravel⟩
        stopRequest := nofun, interlock := fun _ _ _ => rfl, interrupts := rfl }
  · exact { h with stopRequest := nofun, interlock := fun he => absurd he hi, interrupts := rfl }

theorem resetAction {s : State} (h : BlockInv s) : BlockInv (resetAction s) :=
  resetBlock_inv s.drawnLevel (s := s.emit .deviceResetRequest) h.parameters h.resets

theorem bootAction {s : State} (h : BlockInv s) : BlockInv (bootAction s) :=
  { resetBlock_inv s.drawnLevel (s := s.emit .bootRequest) h.parameters h.resets with }

end BlockInv

theorem phaseAfterResp_ne_apply (id : Byte) : phaseAfterResp id ≠ .apply := by
  rw [phaseAfterResp]
  split_ifs <;> exact nofun

theorem StepsTo.inv {s t : State} (h : StepsTo s t) (hs : BlockInv s) : BlockInv t := by
  have hn : BlockInv s.afterNext := hs.afterNext
  cases h with
  | spent => exact hn
  | command hr e => exact hn.exec e
  | unknown hr hd => exact hn.answer (p := .resp) hn.buffer nofun s.draws s.history
  | snap hr => exact hn.snap
  | apply hr => exact hn.apply hr.2.2
  | resetAct hr => exact hn.resetAction
  | bootAct hr => exact hn.bootAction
  | accept he hh hp =>
    rw [acceptRequest_eq]
    exact hn.answer (p := .exec) (Memory.wf_writeBytes _ hn.buffer) nofun s.draws s.history
  | respond he hh hp =>
    rw [handOver_eq]
    exact hn.answer hn.buffer (phaseAfterResp_ne_apply _) s.draws _
  | tick he hh => exact hn.tick
  | clock he hh => exact hn.clock
  | stopLevelChange he hh => exact hn.stopLevelChange _
  | stepHandler hr => exact hn.stepHandler
  | stopHandler hr => exact hn.stopHandler
  | reset he => exact resetBlock_inv _ hn.parameters hn.resets

end Sys2Proof.Machine

open Sys2Proof.Machine in
/-- Settles O49: the parameters REF meet R8, and their reset values the constraint of R7. -/
theorem resetStateMeetsTheInvariants : Obligations.ResetStateMeetsTheInvariants :=
  ofResets_inv (p := Sys2Proof.Params.ref) (by decide) (by decide)

open Sys2Proof.Machine in
/-- Settles O50, by the cases of a step: each keeps every clause of the invariant. -/
theorem everyStepKeepsTheInvariants : Obligations.EveryStepKeepsTheInvariants :=
  fun _ _ hs e => (stepsTo_of_step e).inv hs
end

section
/-! PROOFS. A command repeated at once writes what is already written (20_memory.md R51): the register writes look at no
part of an answer, and each but the shift of SET_ZERO_POS is idempotent. -/

namespace Sys2Proof.Machine

/-! ### Register writes, twice -/

/-- R168, R169, R173: an enum byte stores its value, or both times nothing. -/
theorem getD_getD_self {α : Type} (o : Option α) (old : α) : o.getD (o.getD old) = o.getD old := by
  rw [← Option.getD_or, Option.or_self]

theorem writeDirSetpoint_twice (b : Byte) (s : State) :
    writeDirSetpoint b (writeDirSetpoint b s) = writeDirSetpoint b s := by
  simp only [writeDirSetpoint, getD_getD_self]

theorem writeMode_twice (b : Byte) (s : State) : writeMode b (writeMode b s) = writeMode b s := by
  simp only [writeMode, getD_getD_self]

theorem writeEnable_twice (b : Byte) (s : State) : writeEnable b (writeEnable b s) = writeEnable b s := by
  simp only [writeEnable, getD_getD_self]

/-- R172: the write does not touch the interlock it is refused by. -/
theorem writeRunStatus_twice (b : Byte) (s : State) : writeRunStatus b (writeRunStatus b s) = writeRunStatus b s := by
  simp only [writeRunStatus_eq]
  split_ifs <;> rfl

/-- R174: the write does not touch the stop level it is refused by, and a dropped request stays dropped. -/
theorem writeInterlock_twice (b : Byte) (s : State) : writeInterlock b (writeInterlock b s) = writeInterlock b s := by
  simp only [writeInterlock_eq]
  split_ifs <;> rfl

/-- R186 to R188: one bit is set or cleared, or none. -/
theorem driveOutput_twice (level : Bool) (i : Byte) (dio : BitVec 8) :
    driveOutput level i (driveOutput level i dio) = driveOutput level i dio := by
  simp only [driveOutput]
  split_ifs
  · rw [BitVec.or_assoc, BitVec.or_self]
  · rw [BitVec.and_assoc, BitVec.and_self]
  · rfl

/-! ### Every command at once -/

/-- R51: with SET_ZERO_POS apart, the second write finds its register as the first left it. -/
theorem written_twice {i : Instr} (hi : ∀ ctl x, i ≠ .setZeroPos ctl x) (s : State) :
    written i (written i s) = written i s := by
  cases i with
  | setZeroPos c x => exact absurd rfl (hi c x)
  | setDirSetpt c b r => exact writeDirSetpoint_twice b s
  | setMode c b r => exact writeMode_twice b s
  | setStatus c b r => exact writeRunStatus_twice b s
  | setEnable c b r => exact writeEnable_twice b s
  | setExtInt c b r => exact writeInterlock_twice b s
  | setDioHi c k r => simp only [written, driveOutput_twice]
  | setDioLo c k r => simp only [written, driveOutput_twice]
  | _ => rfl

/-- R51, R176: what a command writes does not depend on the buffer, the phase or the count of free values. -/
theorem written_withAnswer (i : Instr) (s : State) (m : Memory) (p : Phase) (n : Nat) :
    written i { s with pkt := m, pc := p, draws := n } = { written i s with pkt := m, pc := p, draws := n } := by
  cases i with
  | setStatus c b r => simp only [written, writeRunStatus_eq]
  | setExtInt c b r => simp only [written, writeInterlock_eq]
  | _ => rfl

/-- A state that a command left, any answer in it, is one the command's writes leave alone. -/
theorem written_of_exec {i : Instr} {s t : State} (hi : ∀ ctl x, i ≠ .setZeroPos ctl x) (e : exec i s = .next t) :
    written i t = t := by
  have ht : t = { written i s with pkt := t.pkt, pc := t.pc, draws := t.draws } := (exec_leaves_of_next e).registers
  calc written i t
      = written i { written i s with pkt := t.pkt, pc := t.pc, draws := t.draws } := congrArg (written i) ht
    _ = { written i (written i s) with pkt := t.pkt, pc := t.pc, draws := t.draws } := written_withAnswer ..
    _ = { written i s with pkt := t.pkt, pc := t.pc, draws := t.draws } := by rw [written_twice hi]
    _ = t := ht.symm

end Sys2Proof.Machine

open Sys2Proof.Machine in
/-- Settles O23: the first run leaves a state in which the command's writes change nothing, so the second run leaves
only its answer. -/
theorem repeatedCommandChangesNothing : Obligations.RepeatedCommandChangesNothing := by
  intro i s t u hi e e'
  have hu : OnlyAnswerDiffers (written i t) u := (exec_leaves_of_next e').registers
  rwa [written_of_exec hi e] at hu
end

section
/-! PROOFS. The encoding both ways (30_encoding.md R71 to R84): a packet and its fields, what the decoder's answer says
of the packet it read, and the round trip. -/

namespace Sys2Proof

/-! ### A packet and its fields, both ways (R71, R77) -/

@[simp] theorem Packet.i32_ofI32 (id : Byte) (c : ControlByte) (v : Word) : (Packet.ofI32 id c v).i32 = v :=
  Word.ofBytes_byteOf v

@[simp] theorem Packet.u16_ofU16 (id : Byte) (c : ControlByte) (v r : Half) : (Packet.ofU16 id c v r).u16 = v :=
  Half.ofBytes_byteOf v

@[simp] theorem Packet.beyondU16_ofU16 (id : Byte) (c : ControlByte) (v r : Half) :
    (Packet.ofU16 id c v r).beyondU16 = r := Half.ofBytes_byteOf r

@[simp] theorem Packet.u8_ofU8 (id : Byte) (c : ControlByte) (v : Byte) (r : BitVec 24) :
    (Packet.ofU8 id c v r).u8 = v := rfl

@[simp] theorem Packet.beyondU8_ofU8 (id : Byte) (c : ControlByte) (v : Byte) (r : BitVec 24) :
    (Packet.ofU8 id c v r).beyondU8 = r := bits24OfBytes_byteOf r

@[simp] theorem Packet.ofI32_fields (p : Packet) (id : Byte) :
    Packet.ofI32 id (.ofByte p.controlByte) p.i32 = { p with commandId := id } := by
  simp [Packet.ofI32, Packet.i32]

@[simp] theorem Packet.ofU16_fields (p : Packet) (id : Byte) :
    Packet.ofU16 id (.ofByte p.controlByte) p.u16 p.beyondU16 = { p with commandId := id } := by
  simp [Packet.ofU16, Packet.u16, Packet.beyondU16]

@[simp] theorem Packet.ofU8_fields (p : Packet) (id : Byte) :
    Packet.ofU8 id (.ofByte p.controlByte) p.u8 p.beyondU8 = { p with commandId := id } := by
  simp [Packet.ofU8, Packet.u8, Packet.beyondU8]

/-! ### What the decoder's answer says of the packet (R80, R82) -/

/-- R84: the ids the command map leaves unassigned. -/
def Unassigned (id : Byte) : Prop :=
  (25 ≤ id.toNat ∧ id.toNat ≤ 199) ∨ (202 ≤ id.toNat ∧ id.toNat ≤ 250) ∨ 252 ≤ id.toNat

theorem Instr.commandId_assigned (i : Instr) : ¬ Unassigned i.commandId := by
  cases i <;> simp [Unassigned, Instr.commandId]

/-- The answers that are right for a packet: the well-formed command it encodes, or its own unassigned id. -/
inductive Reads (p : Packet) : Decoded → Prop where
  | command {i : Instr} (hp : encode i = p) (hw : i.wf = true) : Reads p (.command i)
  | unknown (hu : Unassigned p.commandId) : Reads p (.unknown p.commandId)

/-- R73: a command is right for a packet that has its id, when it is made of the packet's fields. -/
theorem Reads.of_fields {p : Packet} {i : Instr} (hid : p.commandId.toNat = i.commandId.toNat)
    (hc : i.ctl = .ofByte p.controlByte) (hp : encode i = { p with commandId := i.commandId }) :
    Reads p (.command i) := by
  refine .command ?_ ((congrArg ControlByte.wf hc).trans (ControlByte.ofByte_wf p.controlByte))
  rw [hp, ← BitVec.eq_of_toNat_eq hid]

/-- The one case split over the command map: its 28 rows, and what is left when the id is in none of them. -/
theorem reads_decode (p : Packet) : Reads p (decode p) := by
  unfold decode
  split
  case h_29 =>
    have hlt : p.commandId.toNat < 256 := p.commandId.isLt
    refine .unknown ?_
    unfold Unassigned
    -- `omega` reads each row's `id = k → False` only as `¬ id = k`
    simp only [imp_false] at *
    omega
  all_goals
    next hid => exact .of_fields hid rfl (by simp [encode])

theorem encode_of_decode {p : Packet} {i : Instr} (hd : decode p = .command i) : encode i = p ∧ i.wf = true := by
  have h : Reads p (.command i) := hd ▸ reads_decode p
  cases h with
  | command hp hw => exact ⟨hp, hw⟩

/-! ### What the decoder answers on an encoded command -/

theorem encode_commandId (i : Instr) : (encode i).commandId = i.commandId := by
  cases i <;> rfl

theorem encode_controlByte (i : Instr) : (encode i).controlByte = i.ctl.toByte := by
  cases i <;> rfl

/-- The id selects the command's own row of the map, and each of its fields reads back as it was written. -/
theorem decode_encode {i : Instr} (hw : i.wf = true) : decode (encode i) = .command i := by
  have hc : ControlByte.ofByte (encode i).controlByte = i.ctl := by
    rw [encode_controlByte, ControlByte.ofByte_toByte hw]
  unfold decode
  rw [hc, encode_commandId]
  cases i with
  | setVelSetpt c v r | setPosVel c v r =>
    simp [Instr.commandId, Instr.ctl, encode, Packet.u16_ofU16, Packet.beyondU16_ofU16]
  | setDirSetpt c v r | setMode c v r | setStatus c v r | setEnable c v r | setDioHi c v r | setDioLo c v r
  | setExtInt c v r => simp [Instr.commandId, Instr.ctl, encode, Packet.u8_ofU8, Packet.beyondU8_ofU8]
  | _ c v => simp [Instr.commandId, Instr.ctl, encode, Packet.i32_ofI32]

/-! ### The ids the decoder rejects -/

theorem decode_eq_unknown_iff {p : Packet} {id : Byte} :
    decode p = .unknown id ↔ id = p.commandId ∧ Unassigned id := by
  have h : Reads p (decode p) := reads_decode p
  constructor
  · intro hd
    rw [hd] at h
    cases h with
    | unknown hu => exact ⟨rfl, hu⟩
  · rintro ⟨rfl, hu⟩
    generalize decode p = d at h ⊢
    cases h with
    | @command i hp hw =>
      rw [← hp, encode_commandId] at hu
      exact absurd hu i.commandId_assigned
    | unknown => rfl

end Sys2Proof

open Sys2Proof in
/-- Settles O1, by the payload's variant: id, control byte and payload each come back as they were encoded. -/
theorem decodeOfEncodeIsTheCommand : Obligations.DecodeOfEncodeIsTheCommand := fun _ => decode_encode

open Sys2Proof in
/-- Settles O2, by the rows of the command map: each reads the fields that its encoding writes. -/
theorem encodeOfDecodedIsThePacket : Obligations.EncodeOfDecodedIsThePacket := fun _ _ => encode_of_decode

open Sys2Proof in
/-- Settles O3: no command has an unassigned id, and every other id is in the command map. -/
theorem unknownIdsAreTheUnassignedOnes : Obligations.UnknownIdsAreTheUnassignedOnes :=
  fun _ _ => decode_eq_unknown_iff

/-- Settles O4, by running the decoder on the eight words. -/
theorem sampleWordsDecodeAsTheTableSays : Obligations.SampleWordsDecodeAsTheTableSays := by
  unfold Obligations.SampleWordsDecodeAsTheTableSays
  decide
end

section
/-! PROOFS. The divider and the step-pulse generator (40_pulse_generator.md): where the rounded ratio jumps, the two
velocity limits as inequalities, and the clamp; the rules R97 to R107 follow from these. -/

namespace Sys2Proof.Machine

/-! ### The rounded ratio (R97) -/

/-- The ratio is rounded beyond n exactly from n + 1/2 on: a half goes up. -/
theorem lt_roundedRatio_iff {p : Params} {v : Nat} (hd : 0 < p.prescaler * v) (n : Nat) :
    n < roundedRatio p v ↔ (2 * n + 1) * (p.prescaler * v) ≤ 2 * p.clockFrequency := by
  have hsplit : (n + 1) * (2 * (p.prescaler * v)) = (2 * n + 1) * (p.prescaler * v) + p.prescaler * v := by ring
  rw [roundedRatio, mul_assoc 2, Nat.lt_iff_add_one_le, Nat.le_div_iff_mul_le (Nat.mul_pos two_pos hd), hsplit,
    Nat.add_le_add_iff_right]

/-- The rounded ratio lies half a unit around the exact one, the upper end excluded. -/
theorem roundedRatio_bounds {p : Params} {v : Nat} (hd : 0 < p.prescaler * v) :
    2 * roundedRatio p v * (p.prescaler * v) ≤ 2 * p.clockFrequency + p.prescaler * v ∧
      2 * p.clockFrequency + p.prescaler * v < 2 * (roundedRatio p v + 1) * (p.prescaler * v) := by
  constructor
  · cases hq : roundedRatio p v with
    | zero => simp
    | succ n =>
      have hn := (lt_roundedRatio_iff hd n).1 (by omega)
      linarith
  · have hq := mt (lt_roundedRatio_iff hd (roundedRatio p v)).2 (lt_irrefl _)
    linarith

theorem roundedRatio_anti {p : Params} {v w : Nat} (hp : 0 < p.prescaler) (hv : 0 < v) (hvw : v ≤ w) :
    roundedRatio p w ≤ roundedRatio p v := by
  refine le_of_forall_lt fun n hn => ?_
  rw [lt_roundedRatio_iff (Nat.mul_pos hp (hv.trans_le hvw))] at hn
  rw [lt_roundedRatio_iff (Nat.mul_pos hp hv)]
  calc (2 * n + 1) * (p.prescaler * v)
      ≤ (2 * n + 1) * (p.prescaler * w) := Nat.mul_le_mul_left _ (Nat.mul_le_mul_left _ hvw)
    _ ≤ 2 * p.clockFrequency := hn

/-! ### The clamp (R97) -/

theorem configurePulseRate_cast {p : Params} {v : Nat} (hv : 0 < v) :
    (configurePulseRate p v : Int) = max (p.timerTopMin : Int) (min (p.timerTopMax : Int) (unclampedTop p v)) := by
  rw [configurePulseRate, if_neg hv.ne']
  exact Int.toNat_of_nonneg ((Int.natCast_nonneg _).trans (le_max_left ..))

/-! ### The limits (R98, R99) -/

theorem le_maxVelocity_iff {p : Params} (hp : 0 < p.prescaler) (v : Nat) :
    v ≤ maxVelocity p ↔ v * (p.prescaler * (p.timerTopMin + 1)) ≤ p.clockFrequency :=
  Nat.le_div_iff_mul_le (Nat.mul_pos hp (Nat.succ_pos _))

/-- The formula of R99 is the library's ceiling division. -/
theorem minVelocity_le_iff {p : Params} (hp : 0 < p.prescaler) (v : Nat) :
    minVelocity p ≤ v ↔ p.clockFrequency ≤ v * (p.prescaler * (p.timerTopMax + 1)) := by
  rw [minVelocity, ← Nat.ceilDiv_eq_add_pred_div, ceilDiv_le_iff_le_mul (Nat.mul_pos hp p.timerTopMax.add_one_pos),
    mul_comm v]

theorem prescaler_pos_of_valid {p : Params} (h : validParams p = true) : 0 < p.prescaler := by
  simp only [validParams, Bool.and_eq_true, decide_eq_true_eq] at h
  omega

/-- R103: between the limits the rounded ratio lies in the timer's range, before any clamp. -/
theorem unclampedTop_in_range {p : Params} {v : Nat} (hp : 0 < p.prescaler) (hv : 0 < v) (hmin : minVelocity p ≤ v)
    (hmax : v ≤ maxVelocity p) :
    (p.timerTopMin : Int) ≤ unclampedTop p v ∧ unclampedTop p v ≤ (p.timerTopMax : Int) := by
  have hd := Nat.mul_pos hp hv
  rw [minVelocity_le_iff hp] at hmin
  rw [le_maxVelocity_iff hp] at hmax
  have hlow : p.timerTopMin < roundedRatio p v := (lt_roundedRatio_iff hd _).2 (by linarith)
  have hhigh : ¬ p.timerTopMax + 1 < roundedRatio p v := fun h => by
    have := (lt_roundedRatio_iff hd _).1 h
    linarith
  rw [unclampedTop]
  omega

end Sys2Proof.Machine

open Sys2Proof.Machine in
/-- Settles O32, with the rounded ratio as q. -/
theorem dividerRoundsHalfUpAndClamps : Obligations.DividerRoundsHalfUpAndClamps := by
  intro p v hp hv
  obtain ⟨hlow, hhigh⟩ := roundedRatio_bounds (Nat.mul_pos hp hv)
  exact ⟨roundedRatio p v, hlow, hhigh, configurePulseRate_cast hv⟩

open Sys2Proof.Machine in
/-- Settles O33: the limits put the rounded ratio in the range, where the clamp changes nothing. -/
theorem acceptedVelocitiesNeedNoClamp : Obligations.AcceptedVelocitiesNeedNoClamp := by
  intro p v hp hmin hmax
  have hv : 0 < v := (minVelocity_pos_of_valid hp).trans hmin
  obtain ⟨hlow, hhigh⟩ := unclampedTop_in_range (prescaler_pos_of_valid hp) hv hmin hmax
  refine ⟨hlow, hhigh, ?_⟩
  rw [configurePulseRate_cast hv, min_eq_right hhigh, max_eq_right hlow]

open Sys2Proof.Machine in
/-- Settles O34: the rounded ratio falls with the velocity, and the clamp keeps the order. -/
theorem dividerIsNonIncreasing : Obligations.DividerIsNonIncreasing := by
  intro p v w hp hv hvw
  have hratio := roundedRatio_anti hp hv hvw
  have htop : unclampedTop p w ≤ unclampedTop p v := by
    simp only [unclampedTop]
    omega
  rw [← Int.ofNat_le, configurePulseRate_cast hv, configurePulseRate_cast (hv.trans_le hvw)]
  exact max_le_max_left _ (min_le_min_left _ htop)

open Sys2Proof.Machine in
/-- Settles O35, by the inequalities of the two divisions. -/
theorem limitsAreTheEndsOfTheRange : Obligations.LimitsAreTheEndsOfTheRange :=
  fun _ v hp => ⟨le_maxVelocity_iff hp v, minVelocity_le_iff hp v⟩

open Sys2Proof.Machine in
/-- Settles O36: the step performs the tick, which is the pulse under the gate and the request. -/
theorem tickPulsesAndRaisesTheRequest : Obligations.TickPulsesAndRaisesTheRequest := by
  intro s he hh
  rw [step_of_running hh, he]
  exact congrArg Host.Outcome.next (tick_eq s.afterNext)
end

section
/-! PROOFS. The motion-mode controller (41_motion_mode.md): the targets of R118 and R119 under the one condition each
moves on, the update as one function, and the foreground's undisturbed pair as that function. -/

namespace Sys2Proof.Machine

/-! ### The targets (R116, R118, R119) -/

/-- R118: when `positionModeUpdate` sets the motor moving. -/
abbrev PositionMoves (s : State) : Prop :=
  s.posSetpoint ≠ s.position ∧ s.runStatus = .running ∧ minVelocity s.cfg ≤ s.travelVelocity.toNat

/-- R119: when `velocityModeUpdate` sets the motor moving. -/
abbrev VelocityMoves (s : State) : Prop := s.runStatus = .running ∧ minVelocity s.cfg ≤ s.velSetpoint.toNat

/-- The error wraps (D12), and is 0 exactly when the position is the setpoint. -/
theorem positionError_eq_zero_iff (s : State) : positionError s = 0 ↔ s.posSetpoint = s.position := sub_eq_zero

theorem isPositive_iff (error : Word) : isPositive error = true ↔ 0 < error.toInt := decide_eq_true_iff

theorem modeTargets_of_position {s : State} (h : s.mode = .position) :
    modeTargets s =
      { tgtDirection := if 0 < (s.posSetpoint - s.position).toInt then .positive else .negative
        tgtVelocity := if PositionMoves s then s.travelVelocity else 0
        tgtOutput := decide (PositionMoves s)
        tgtTrigger := .keep
        updMode := .position } := by
  have hmoves : (positionError s != 0 && decide (s.runStatus = .running) &&
      decide (minVelocity s.cfg ≤ s.travelVelocity.toNat)) = decide (PositionMoves s) := by
    rw [Bool.eq_iff_iff]
    simp only [Bool.and_eq_true, bne_iff_ne, ne_eq, positionError_eq_zero_iff, decide_eq_true_eq, and_assoc]
  simp only [modeTargets, h, positionTargets, hmoves, isPositive_iff, decide_eq_true_eq]
  rfl

theorem modeTargets_of_velocity {s : State} (h : s.mode = .velocity) :
    modeTargets s =
      { tgtDirection := s.dirSetpoint
        tgtVelocity := if VelocityMoves s then s.velSetpoint else 0
        tgtOutput := decide (VelocityMoves s)
        tgtTrigger := .drive (decide (VelocityMoves s))
        updMode := .velocity } := by
  simp only [modeTargets, h, velocityTargets, ← Bool.decide_and, decide_eq_true_eq]

theorem modeTargets_of_stopped {s : State} (h : s.runStatus = .stopped) :
    (modeTargets s).tgtVelocity = 0 ∧ (modeTargets s).tgtOutput = false := by
  cases hm : s.mode with
  | position => simp [modeTargets_of_position hm, h]
  | velocity => simp [modeTargets_of_velocity hm, h]

theorem position_ne_of_target_moves {s : State} (hm : s.mode = .position)
    (hv : 0 < (modeTargets s).tgtVelocity.toNat) : s.position ≠ s.posSetpoint := by
  rw [modeTargets_of_position hm] at hv
  intro harrived
  simp [PositionMoves, harrived] at hv

theorem TriggerTarget.apply_eq (t : TriggerTarget) (trigger : Bool) :
    t.apply trigger = if t = .keep then trigger else decide (t = .drive true) := by
  cases t with
  | keep => rfl
  | drive value => cases value <;> rfl

theorem TriggerTarget.apply_twice (t : TriggerTarget) (trigger : Bool) :
    t.apply (t.apply trigger) = t.apply trigger := by
  cases t <;> rfl

/-! ### The update as one function (R122, R125) -/

/-- An apply writes none of the registers a snapshot reads. -/
theorem modeTargets_applyTargets (t : Latches) (s : State) : modeTargets (applyTargets t s) = modeTargets s := rfl

theorem applyTargets_twice (t : Latches) (s : State) : applyTargets t (applyTargets t s) = applyTargets t s := by
  simp only [applyTargets_eq, TriggerTarget.apply_twice]
  split <;> rfl

/-- The second update finds the first one's targets, and an apply of the same targets repeats itself. -/
theorem inlineUpdate_twice (s : State) : inlineUpdate (inlineUpdate s) = inlineUpdate s := by
  simp only [inlineUpdate, modeTargets_applyTargets, applyTargets_twice]

/-! ### The foreground's two transactions (R117, R121) -/

theorem step_of_runsPhase_snap {s : State} (h : RunsPhase s .snap) : step s = .next (snapTransaction s.afterNext) :=
  (step_foreground h).trans (foreground_snap (s := s.afterNext) h.2.2)

theorem step_of_runsPhase_apply {s : State} (h : RunsPhase s .apply) : step s = .next (applyTransaction s.afterNext) :=
  (step_foreground h).trans (foreground_apply (s := s.afterNext) h.2.2)

/-- The foreground's SNAP and APPLY with nothing between are the update as one function; it leaves its latches. -/
theorem applyTransaction_snapTransaction (s : State) :
    applyTransaction (snapTransaction s) = { inlineUpdate s with latches := modeTargets s, pc := .resp } := by
  rw [snapTransaction_eq, applyTransaction_eq, inlineUpdate, applyTargets_eq]

theorem run_update {s : State} {rest : List Event} (hp : s.pc = .snap) (hh : s.halted = false)
    (ha : s.agenda = .foreground :: .foreground :: rest) :
    core.run 2 s = .next { inlineUpdate s with latches := modeTargets s, pc := .resp, agenda := rest } := by
  calc core.run 2 s
      = core.run 1 (snapTransaction { s with agenda := .foreground :: rest }) := run_succ 1 (step_snap ha hh hp)
    _ = .next (applyTransaction (snapTransaction { s with agenda := rest })) := run_succ 0 (step_apply rfl hh rfl)
    _ = _ := congrArg Host.Outcome.next (applyTransaction_snapTransaction _)

end Sys2Proof.Machine

open Sys2Proof.Machine in
/-- Settles O30: the pair is the update as one function, whose outputs are the targets of the state it starts from. -/
theorem updateGuarantees : Obligations.UpdateGuarantees := by
  intro s rest hp hh ha
  refine ⟨_, run_update hp hh ha, modeTargets_of_stopped (s := s), fun hm => ?_, position_ne_of_target_moves (s := s)⟩
  have htargets := modeTargets_of_velocity (s := s) hm
  simp only [inlineUpdate, applyTargets_eq, htargets, TriggerTarget.apply]

open Sys2Proof.Machine in
/-- Settles O31: an update writes nothing its targets are computed from. -/
theorem updateTwiceIsUpdateOnce : Obligations.UpdateTwiceIsUpdateOnce := inlineUpdate_twice

open Sys2Proof.Machine in
/-- Settles O27: the targets of POSITION mode, taken from the state without its event. -/
theorem positionSnapshotComputesTargets : Obligations.PositionSnapshotComputesTargets := by
  intro s h hm
  rw [step_of_runsPhase_snap h, snapTransaction_eq, modeTargets_of_position (s := s.afterNext) hm]
  rfl

open Sys2Proof.Machine in
/-- Settles O28: the targets of VELOCITY mode, taken from the state without its event. -/
theorem velocitySnapshotComputesTargets : Obligations.VelocitySnapshotComputesTargets := by
  intro s h hm
  rw [step_of_runsPhase_snap h, snapTransaction_eq, modeTargets_of_velocity (s := s.afterNext) hm]
  rfl

open Sys2Proof.Machine in
/-- Settles O29: the apply reads the latches and nothing about the state they were computed in. -/
theorem applyWritesTheLatches : Obligations.ApplyWritesTheLatches := by
  intro s h
  rw [step_of_runsPhase_apply h, applyTransaction_eq, TriggerTarget.apply_eq]
  rfl
end

section
/-! PROOFS. The foreground sequencer (42_command_sequencer.md): the step of each of its transactions, the phase each
request's EXEC leads to, and the way of a request from ACCEPT to its Response. -/

namespace Sys2Proof.Machine

/-! ### The step of each transaction (R131, R132, R133, R137) -/

theorem step_of_runsPhase_exec {s : State} (h : RunsPhase s .exec) : step s = runBuffer s.afterNext :=
  (step_foreground h).trans (foreground_exec (s := s.afterNext) h.2.2)

theorem step_of_runs {s : State} {i : Instr} (h : Runs s i) : step s = exec i s.afterNext := by
  obtain ⟨he, hh, hp, hd⟩ := h
  rw [step_of_runsPhase_exec ⟨he, hh, hp⟩, runBuffer_command (s := s.afterNext) hd]

theorem step_of_runsPhase_exec_unknown {s : State} {id : Byte} (h : RunsPhase s .exec)
    (hd : decode s.packet = .unknown id) : step s = .next (s.afterNext.setPc .resp) :=
  (step_of_runsPhase_exec h).trans (runBuffer_unknown (s := s.afterNext) hd)

theorem step_accept {s : State} {p : Packet} (he : s.nextEvent = .accept p) (hh : s.halted = false)
    (hp : s.pc = .idle) : step s = .next (acceptRequest p s.afterNext) := by
  rw [step_of_running hh, he]
  exact congrArg Host.Outcome.next (if_pos ((reqReady_iff s).2 ⟨hp, hh⟩))

/-- R132, log 19: a busy block takes no request. -/
theorem step_accept_of_busy {s : State} {p : Packet} (he : s.nextEvent = .accept p) (hh : s.halted = false)
    (hp : s.pc ≠ .idle) : step s = .next s.afterNext := by
  rw [step_of_running hh, he]
  exact congrArg Host.Outcome.next (if_neg fun hr => hp ((reqReady_iff s).1 hr).1)

theorem step_respond {s : State} (he : s.nextEvent = .respond) (hh : s.halted = false) (hp : s.pc = .resp) :
    step s = .next (handOver s.afterNext) := by
  rw [step_of_running hh, he]
  exact congrArg Host.Outcome.next (if_pos ((respValid_iff s).2 hp))

@[simp] theorem packet_acceptRequest (p : Packet) (s : State) : (acceptRequest p s).packet = p := packet_setPacket s p

theorem decodeTableWord_eq_some_iff {nbits w : Nat} {i : Instr} :
    decodeTableWord nbits w = some i ↔ decode (.ofTableWord nbits w) = .command i := by
  rw [decodeTableWord]
  split <;> simp [*]

theorem phaseAfterResp_cases (id : Byte) :
    phaseAfterResp id = .idle ∨ phaseAfterResp id = .resetAct ∨ phaseAfterResp id = .bootAct := by
  rw [phaseAfterResp]
  split_ifs <;> simp

/-! ### The phase after EXEC (R133, R134, R193) -/

/-- The phase that the EXEC of a decoded request leads to. -/
def phaseAfterExecOf : Decoded → Phase
  | .command i => if i.isRestart then .resp else phaseAfterExec i.ctl
  | .unknown _ => .resp

theorem phaseAfterExec_of_wf {ctl : ControlByte} (h : ctl.wf = true) :
    phaseAfterExec ctl = if ctl.toByte = 200#8 then .snap else .resp := by
  simp only [phaseAfterExec_eq, nextPhase, ControlByte.toByte_eq_200 h]

theorem phaseAfterExecOf_cases (d : Decoded) : phaseAfterExecOf d = .snap ∨ phaseAfterExecOf d = .resp := by
  cases d with
  | command i =>
    simp only [phaseAfterExecOf, phaseAfterExec_eq, nextPhase]
    split_ifs <;> simp
  | unknown id => exact .inr rfl

/-! ### A request from ACCEPT to its Response (R138) -/

/-- The block serves a request: it is in phase `p` with the request's id in the buffer, not halted, has emitted the
history `h` so far, and the events `a` are to come. -/
structure Serving (id : Byte) (h : List OutputEvent) (p : Phase) (a : List Event) (s : State) : Prop where
  running : s.halted = false
  phase : s.pc = p
  id : s.pktByte 0 = id
  history : s.history = h
  agenda : s.agenda = a

/-- ACCEPT begins it. -/
theorem serving_of_accept {s : State} {p : Packet} {a : List Event} (hp : s.pc = .idle) (hh : s.halted = false)
    (ha : s.agenda = .accept p :: a) :
    ∃ t, step s = .next t ∧ t.packet = p ∧ Serving p.commandId s.history .exec a t :=
  ⟨_, step_accept (nextEvent_of_agenda ha) hh hp, packet_acceptRequest p _,
    hh, rfl, congrArg Packet.commandId (packet_acceptRequest p s.afterNext), rfl, congrArg List.tail ha⟩

namespace Serving

variable {id : Byte} {h : List OutputEvent} {a : List Event} {s : State}

theorem runsPhase {p : Phase} (hs : Serving id h p (.foreground :: a) s) : RunsPhase s p :=
  ⟨nextEvent_of_agenda hs.agenda, hs.running, hs.phase⟩

/-- EXEC, of a command or of an unknown id, leads to the phase the request alone decides. -/
theorem exec (hs : Serving id h .exec (.foreground :: a) s) :
    ∃ t, step s = .next t ∧ Serving id h (phaseAfterExecOf (decode s.packet)) a t := by
  have ha : s.afterNext.agenda = a := congrArg List.tail hs.agenda
  cases hd : decode s.packet with
  | command i =>
    obtain ⟨t, ht, hl⟩ := exec_leaves i s.afterNext
    have hk := exec_keeps ht
    exact ⟨t, (step_of_runs ⟨nextEvent_of_agenda hs.agenda, hs.running, hs.phase, hd⟩).trans ht,
      hk.halted.trans hs.running, hl.phase, hl.id.trans hs.id, hk.history.trans hs.history, hk.agenda.trans ha⟩
  | unknown uid =>
    exact ⟨_, step_of_runsPhase_exec_unknown hs.runsPhase hd, hs.running, rfl, hs.id, hs.history, ha⟩

/-- SNAP and APPLY write neither the buffer nor the history. -/
theorem update (hs : Serving id h .snap (.foreground :: .foreground :: a) s) :
    ∃ t, core.run 2 s = .next t ∧ Serving id h .resp a t :=
  ⟨_, run_update hs.phase hs.running hs.agenda, hs.running, rfl, hs.id, hs.history, rfl⟩

/-- RESP ends it, with one Response whose id is the request's. -/
theorem respond (hs : Serving id h .resp (.respond :: a) s) :
    ∃ t q, core.run 1 s = .next t ∧ t.agenda = a ∧ t.history = h ++ [.response q] ∧ q.commandId = id ∧
      (t.pc = .idle ∨ t.pc = .resetAct ∨ t.pc = .bootAct) :=
  ⟨_, s.packet, run_succ 0 (step_respond (nextEvent_of_agenda hs.agenda) hs.running hs.phase),
    congrArg List.tail hs.agenda, congrArg (· ++ [OutputEvent.response s.packet]) hs.history, hs.id,
    phaseAfterResp_cases _⟩

end Serving

/-- R138: how many foreground transactions a request takes, EXEC alone or with SNAP and APPLY after it. -/
def transactionsOf (p : Packet) : Nat := if phaseAfterExecOf (decode p) = .snap then 3 else 1

theorem transactionsOf_le (p : Packet) : transactionsOf p ≤ 3 := by
  rw [transactionsOf]
  split <;> omega

/-- The request's foreground transactions take it from EXEC to RESP. -/
theorem Serving.toResp {id : Byte} {h : List OutputEvent} {a : List Event} {s : State} {p : Packet}
    (hp : s.packet = p) (hs : Serving id h .exec (List.replicate (transactionsOf p) .foreground ++ a) s) :
    ∃ t, core.run (transactionsOf p) s = .next t ∧ Serving id h .resp a t := by
  subst hp
  rcases phaseAfterExecOf_cases (decode s.packet) with hd | hd
  · have hn : transactionsOf s.packet = 3 := if_pos hd
    rw [hn] at hs ⊢
    obtain ⟨u, hu, hsu⟩ := hs.exec
    obtain ⟨t, ht, hst⟩ := (hd ▸ hsu).update
    exact ⟨t, (run_succ 2 hu).trans ht, hst⟩
  · have hn : transactionsOf s.packet = 1 := if_neg (by simp [hd])
    rw [hn] at hs ⊢
    obtain ⟨t, ht, hst⟩ := hs.exec
    exact ⟨t, run_succ 0 ht, hd ▸ hst⟩

end Sys2Proof.Machine

open Sys2Proof.Machine in
/-- Settles O22: EXEC leaves the phase of R134, and a well-formed control byte is APPLY exactly at 200. -/
theorem applyDecision : Obligations.ApplyDecision := by
  intro i s t hw e
  rw [(exec_leaves_of_next e).phase, phaseAfterExec_of_wf hw]
  cases i.isRestart <;> simp

open Sys2Proof.Machine in
/-- Settles O26: ACCEPT, the request's one or three transactions, and RESP, each handing the request on. -/
theorem requestsAreAnsweredInBoundedSteps : Obligations.RequestsAreAnsweredInBoundedSteps := by
  intro s p hp hh
  refine ⟨transactionsOf p, transactionsOf_le p, fun more => ?_⟩
  obtain ⟨t, ht, hpkt, hs⟩ := serving_of_accept (s := { s with agenda := .accept p ::
    (List.replicate (transactionsOf p) .foreground ++ .respond :: more) }) hp hh rfl
  obtain ⟨u, hu, hsu⟩ := hs.toResp hpkt
  obtain ⟨v, q, hv, hanswered⟩ := hsu.respond
  refine ⟨v, q, ?_, hanswered⟩
  rw [run_succ _ ht, run_add _ 1 hu, hv]

open Sys2Proof.Machine in
/-- Settles O5: the foreground's step in EXEC runs the buffer, which holds the command. -/
theorem stepRunsTheDecodedCommand : Obligations.StepRunsTheDecodedCommand :=
  fun _ _ he hh hp hd => step_of_runs ⟨he, hh, hp, hd⟩

open Sys2Proof Sys2Proof.Machine in
/-- Settles O7: the placed word's packet is in the buffer and decodes to the command, which the step then runs. -/
theorem fetchedWordRunsNext : Obligations.FetchedWordRunsNext := by
  intro s nbits w i hw
  have hpkt : (s.withFetchWord nbits w).packet = Packet.ofTableWord nbits w := packet_loadRequest s _
  have hd : decode (s.withFetchWord nbits w).packet = .command i := hpkt ▸ decodeTableWord_eq_some_iff.1 hw
  exact ⟨_, step_of_runs ⟨rfl, rfl, rfl, hd⟩, hpkt, rfl⟩

open Sys2Proof.Machine in
/-- Settles O24: a ready block copies the packet and nothing beyond offset 5, a busy one spends the event. -/
theorem acceptCopiesTheRequest : Obligations.AcceptCopiesTheRequest := by
  intro s p he hh
  refine ⟨fun hp => ⟨_, step_accept he hh hp, rfl, packet_acceptRequest p _, fun a ha => ?_⟩,
    step_accept_of_busy he hh⟩
  exact Memory.read_writeBytes_of_not_mem _ _ fun c _ => by omega

open Sys2Proof.Machine in
/-- Settles O25: the step is RESP, and the next phase is read from the id in the buffer. -/
theorem respHandsOverTheResponse : Obligations.RespHandsOverTheResponse :=
  fun s he hh hp => (step_respond he hh hp).trans (congrArg Host.Outcome.next (handOver_eq s.afterNext))
end

section
/-! PROOFS. The query commands (43_cmd_query.md): from the one update that a command's EXEC is to the answer it gives,
once per variant of the response, and the width of the two limits. -/

namespace Sys2Proof.Machine

/-! ### The answer of a transaction, by the variant of its response (R78, R134) -/

/-- The value may be given in another form than the transaction computes it in, as an enum's code is. -/
theorem answersU8_of_eq {r : Result} {s : State} {v w : Byte} {ctl : ControlByte}
    (h : r = .next (answerU8 s v (phaseAfterExec ctl))) (hv : v = w) :
    ∃ t, r = .next t ∧ AnswersU8 s t w (nextPhase ctl) :=
  ⟨_, h, by rw [hv, phaseAfterExec_eq]; exact respondU8_answers ..⟩

theorem answersU16_of_eq {r : Result} {s : State} {v : Half} {ctl : ControlByte}
    (h : r = .next (answerU16 s v (phaseAfterExec ctl))) : ∃ t, r = .next t ∧ AnswersU16 s t v (nextPhase ctl) :=
  ⟨_, h, by rw [phaseAfterExec_eq]; exact respondU16_answers ..⟩

theorem answersI32_of_eq {r : Result} {s : State} {v : Word} {ctl : ControlByte}
    (h : r = .next (answerI32 s v (phaseAfterExec ctl))) : ∃ t, r = .next t ∧ AnswersI32 s t v (nextPhase ctl) :=
  ⟨_, h, by rw [phaseAfterExec_eq]; exact respondI32_answers ..⟩

/-- A number that fits u16 is answered whole, not modulo 2^16 (log 18). -/
theorem answersU16_whole {r : Result} {s : State} {n : Nat} {ctl : ControlByte} (hn : n ≤ 65535)
    (h : r = .next (answerU16 s (BitVec.ofNat 16 n) (phaseAfterExec ctl))) :
    ∃ (v : Half) (t : State), v.toNat = n ∧ r = .next t ∧ AnswersU16 s t v (nextPhase ctl) := by
  have hv : (BitVec.ofNat 16 n).toNat = n := Nat.mod_eq_of_lt (Nat.lt_succ_of_le hn)
  obtain ⟨t, ht, ha⟩ := answersU16_of_eq h
  exact ⟨_, t, hv, ht, ha⟩

/-! ### The limits fit u16 (R8) -/

theorem limits_le_of_valid {p : Params} (h : validParams p = true) : maxVelocity p ≤ 65535 ∧ minVelocity p ≤ 65535 := by
  simp only [validParams, Bool.and_eq_true, decide_eq_true_eq] at h
  omega

end Sys2Proof.Machine

open Sys2Proof.Machine in
/-- Settles O9: each of the three commands is one i32 answer in a state otherwise untouched. -/
theorem positionQueriesAnswer : Obligations.PositionQueriesAnswer :=
  fun _ _ _ => ⟨answersI32_of_eq (exec_getPos ..), answersI32_of_eq (exec_getPosSetpt ..),
    answersI32_of_eq (exec_getPosErr ..)⟩

open Sys2Proof.Machine in
/-- Settles O10: each of the three commands is one u16 answer in a state otherwise untouched. -/
theorem velocityQueriesAnswer : Obligations.VelocityQueriesAnswer :=
  fun _ _ _ => ⟨answersU16_of_eq (exec_getVelSetpt ..), answersU16_of_eq (exec_getVel ..),
    answersU16_of_eq (exec_getPosVel ..)⟩

open Sys2Proof.Machine in
/-- Settles O11: each of the six commands is one u8 answer, whose byte is the register's code of R15. -/
theorem enumQueriesAnswer : Obligations.EnumQueriesAnswer := by
  intro ctl payload s
  refine ⟨?dirSetpt, ?mode, ?status, ?dir, ?enable, ?interlock⟩
  case dirSetpt => exact answersU8_of_eq (exec_getDirSetpt ..) (Direction.toByte_eq ..)
  case mode => exact answersU8_of_eq (exec_getMode ..) (Mode.toByte_eq ..)
  case status => exact answersU8_of_eq (exec_getStatus ..) (RunStatus.toByte_eq ..)
  case dir => exact answersU8_of_eq (exec_getDir ..) (Direction.toByte_eq ..)
  case enable => exact answersU8_of_eq (exec_getEnable ..) (Switch.enableToByte_eq ..)
  case interlock => exact answersU8_of_eq (exec_getExtInt ..) (Switch.interlockToByte_eq ..)

open Sys2Proof.Machine in
/-- Settles O12: valid parameters keep both limits within u16, so the answer is the limit itself. -/
theorem limitQueriesAnswer : Obligations.LimitQueriesAnswer := by
  intro ctl payload s hp
  obtain ⟨hmax, hmin⟩ := limits_le_of_valid hp
  exact ⟨answersU16_whole hmax (exec_getMaxVel ..), answersU16_whole hmin (exec_getMinVel ..)⟩
end

section
/-! PROOFS. The setter commands (44_cmd_set.md): the answer of each is given in the state its register write left, and
what is read of that state (the position error, the driver's line) is read of the answering state too. -/

namespace Sys2Proof.Machine

/-! ### What an answer leaves readable -/

/-- R171: the shift is the same in both registers, so their wrapped difference does not see it. -/
@[simp] theorem positionError_shiftZero (x : Word) (s : State) : positionError (shiftZero x s) = positionError s :=
  sub_sub_sub_cancel_right s.posSetpoint s.position x

theorem OnlyAnswerDiffers.positionError {s t : State} (h : OnlyAnswerDiffers s t) :
    Machine.positionError t = Machine.positionError s := (congrArg Machine.positionError h).trans rfl

theorem OnlyAnswerDiffers.drvEnableOut {s t : State} (h : OnlyAnswerDiffers s t) : t.drvEnableOut = s.drvEnableOut :=
  (congrArg State.drvEnableOut h).trans rfl

/-- R25: the driver-enable line is the register. -/
theorem drvEnableOut_iff (s : State) : s.drvEnableOut = true ↔ s.enable = .enabled := decide_eq_true_iff

end Sys2Proof.Machine

open Sys2Proof.Machine in
/-- Settles O13: the command is one register write and one i32 answer, with no test of the operand. -/
theorem setPosSetptStoresAnyValue : Obligations.SetPosSetptStoresAnyValue :=
  fun _ _ _ => answersI32_of_eq (exec_setPosSetpt ..)

open Sys2Proof.Machine in
/-- Settles O14: both commands store and answer the same clamped operand (R175). -/
theorem velocitySettersClamp : Obligations.VelocitySettersClamp :=
  fun _ x _ s => ⟨clampVelocity s.cfg x, clampVelocity_toNat s.cfg x, answersU16_of_eq (exec_setVelSetpt ..),
    answersU16_of_eq (exec_setPosVel ..)⟩

open Sys2Proof.Machine in
/-- Settles O15: the answer changes no register, and the shift before it keeps the position error. -/
theorem setZeroPosShiftsBoth : Obligations.SetZeroPosShiftsBoth := by
  intro ctl x s
  obtain ⟨t, ht, ha⟩ := answersI32_of_eq (exec_setZeroPos ctl x s)
  have herr : positionError t = positionError s := ha.1.positionError.trans (positionError_shiftZero x s)
  exact ⟨t, ht, ha, herr⟩

open Sys2Proof.Machine in
/-- Settles O16: each command answers in the state its enum write left, and SET_ENABLE's line is read from the register
written. -/
theorem enumSettersStoreOrIgnore : Obligations.EnumSettersStoreOrIgnore := by
  intro ctl b rest s
  refine ⟨?dirSetpt, ?mode, ?enable⟩
  case dirSetpt =>
    obtain ⟨t, ht, ha⟩ := answersU8_of_eq (exec_setDirSetpt ctl b rest s) (Direction.toByte_eq ..)
    rw [writeDirSetpoint_eq] at ha
    exact ⟨_, t, rfl, ht, ha⟩
  case mode =>
    obtain ⟨t, ht, ha⟩ := answersU8_of_eq (exec_setMode ctl b rest s) (Mode.toByte_eq ..)
    rw [writeMode_eq] at ha
    exact ⟨_, t, rfl, ht, ha⟩
  case enable =>
    obtain ⟨t, ht, ha⟩ := answersU8_of_eq (exec_setEnable ctl b rest s) (Switch.enableToByte_eq ..)
    rw [writeEnable_eq] at ha
    refine ⟨_, t, rfl, ht, ?_, ha⟩
    rw [ha.1.drvEnableOut, drvEnableOut_iff]

open Sys2Proof.Machine in
/-- Settles O17: the command answers in the state that the write of R172 left. -/
theorem setStatusRefusesRunningWhileInterlocked : Obligations.SetStatusRefusesRunningWhileInterlocked := by
  intro ctl b rest s
  obtain ⟨t, ht, ha⟩ := answersU8_of_eq (exec_setStatus ctl b rest s) (RunStatus.toByte_eq ..)
  rw [writeRunStatus_eq] at ha
  exact ⟨_, t, rfl, ht, ha⟩

open Sys2Proof.Machine in
/-- Settles O18: the command answers in the state that the write of R174 left, the stop request with it. -/
theorem setExtIntRefusesEnableWhileAsserted : Obligations.SetExtIntRefusesEnableWhileAsserted := by
  intro ctl b rest s
  obtain ⟨t, ht, ha⟩ := answersU8_of_eq (exec_setExtInt ctl b rest s) (Switch.interlockToByte_eq ..)
  rw [writeInterlock_eq] at ha
  exact ⟨_, _, t, rfl, rfl, ht, ha⟩
end

section
/-! PROOFS. The output, restart and diagnostic commands and the unknown ids (45_cmd_system.md): the answer of each command,
and the two restart actions as steps that emit their request and reset. -/

namespace Sys2Proof.Machine

/-! ### TEST (R192) -/

/-- The answer is the parameters' constant, in the variant of its type. -/
theorem respondTest_answers (s : State) (next : Phase) : AnswersTest s ((respondTest s).setPc next) next := by
  cases h : s.cfg.test with
  | u8 v => simpa only [AnswersTest, respondTest, h] using respondU8_answers s v next
  | u16 v => simpa only [AnswersTest, respondTest, h] using respondU16_answers s v next
  | i32 v => simpa only [AnswersTest, respondTest, h] using respondI32_answers s v next

/-! ### The restart actions (R190, R191) -/

theorem step_of_runsPhase_resetAct {s : State} (h : RunsPhase s .resetAct) : step s = .next (resetAction s.afterNext) :=
  (step_foreground h).trans (foreground_resetAct (s := s.afterNext) h.2.2)

theorem step_of_runsPhase_bootAct {s : State} (h : RunsPhase s .bootAct) : step s = .next (bootAction s.afterNext) :=
  (step_foreground h).trans (foreground_bootAct (s := s.afterNext) h.2.2)

theorem resetAction_holds (s : State) : HoldsResetValues s.cfg.resets (resetAction s) :=
  resetBlock_holds s.drawnLevel (s.emit .deviceResetRequest)

/-- `HoldsResetValues` says nothing of `halted`, so the halt of R191 keeps it. -/
theorem bootAction_holds (s : State) : HoldsResetValues s.cfg.resets (bootAction s) :=
  { resetBlock_holds s.drawnLevel (s.emit .bootRequest) with }

end Sys2Proof.Machine

open Sys2Proof.Machine in
/-- Settles O6: the foreground's step in EXEC runs the buffer, whose unknown id writes the phase alone. -/
theorem unknownIdIsANoOp : Obligations.UnknownIdIsANoOp :=
  fun _ _ he hh hp hd => step_of_runsPhase_exec_unknown ⟨he, hh, hp⟩ hd

open Sys2Proof.Machine in
/-- Settles O19: each command answers its index in the state whose outputs `driveOutput` left, known bit by bit. -/
theorem outputCommandsDriveOneOutput : Obligations.OutputCommandsDriveOneOutput := by
  intro ctl i rest s
  refine ⟨?high, ?low⟩
  case high =>
    obtain ⟨t, ht, ha⟩ := answersU8_of_eq (exec_setDioHi ctl i rest s) rfl
    exact ⟨_, t, getLsbD_driveOutput_high i s.dio, ht, ha⟩
  case low =>
    obtain ⟨t, ht, ha⟩ := answersU8_of_eq (exec_setDioLo ctl i rest s) rfl
    exact ⟨_, t, getLsbD_driveOutput_low i s.dio, ht, ha⟩

open Sys2Proof.Machine in
/-- Settles O20: the EXEC of both commands is the move to RESP, which ignores the control byte. -/
theorem restartCommandsOnlyAdvance : Obligations.RestartCommandsOnlyAdvance :=
  fun ctl payload s => ⟨exec_deviceReset ctl payload s, exec_bootloaderMode ctl payload s⟩

open Sys2Proof.Machine in
/-- Settles O21: the command is one answer of the constant, and the phase after it is that of R134. -/
theorem testAnswersTheConstant : Obligations.TestAnswersTheConstant :=
  fun ctl payload s => ⟨_, exec_test ctl payload s, phaseAfterExec_eq ctl ▸ respondTest_answers s _⟩

open Sys2Proof.Machine in
/-- Settles O47: both actions emit and reset the state without its event; BOOT_ACT then sets the halt. -/
theorem restartActionsEmitAndReset : Obligations.RestartActionsEmitAndReset := by
  intro s
  refine ⟨fun h => ⟨_, step_of_runsPhase_resetAct h, resetAction_holds s.afterNext, ?reset⟩,
    fun h => ⟨_, step_of_runsPhase_bootAct h, bootAction_holds s.afterNext, ?boot⟩⟩
  case reset => exact ⟨rfl, rfl, rfl, rfl⟩
  case boot => exact ⟨rfl, rfl, rfl, rfl⟩
end

section
/-! PROOFS. The interrupts (60_exceptions.md): the step of a handler's event, what each handler leaves case by case, and
the rules about the stop handler, its request and the interlock. -/

namespace Sys2Proof.Machine

/-! ### No step stops (R201) -/

theorem runBuffer_answers (s : State) : ∃ t, runBuffer s = .next t := by
  cases hd : decode s.packet with
  | command i =>
    obtain ⟨t, ht, -⟩ := exec_leaves i s
    exact ⟨t, (runBuffer_command hd).trans ht⟩
  | unknown id => exact ⟨_, runBuffer_unknown hd⟩

theorem foreground_answers (s : State) : ∃ t, foreground s = .next t := by
  cases hp : s.pc with
  | exec =>
    rw [foreground_exec hp]
    exact runBuffer_answers s
  | _ => simp [foreground, hp]

theorem performActive_answers (e : Event) (s : State) : ∃ t, performActive e s = .next t := by
  cases e with
  | foreground => exact foreground_answers s
  | _ => exact ⟨_, rfl⟩

theorem perform_answers (e : Event) (s : State) : ∃ t, perform e s = .next t := by
  rw [perform]
  split
  · exact ⟨s, rfl⟩
  · exact performActive_answers e s

/-! ### The step of a handler's event (R204) -/

/-- The event in which a source's handler gets its turn. -/
def IrqSource.event : IrqSource → Event
  | .step => .stepIrq
  | .stop => .stopIrq

theorem canTake_eq_false_iff (s : State) (src : IrqSource) :
    s.canTake src = false ↔ s.ie = false ∨ s.pending src = false ∨ s.halted = true := by
  simp only [State.canTake, Bool.and_eq_false_iff, Bool.not_eq_false', or_assoc]

/-- The step of a handler's event is the handler, if it may be entered; a halted block enters none. -/
theorem step_of_irq {s : State} {src : IrqSource} (he : s.nextEvent = src.event) :
    step s = .next (tryHandler src s.afterNext) := by
  cases hh : s.halted with
  | false =>
    rw [step_of_running hh, he]
    cases src <;> rfl
  | true =>
    have hc : s.afterNext.canTake src = false := (canTake_eq_false_iff ..).2 (.inr (.inr hh))
    have hr : src.event.isReset = false := by cases src <;> rfl
    rw [step_of_halted hh (he ▸ hr), tryHandler_of_not_canTake hc]

theorem step_of_not_canTake {s : State} {src : IrqSource} (he : s.nextEvent = src.event)
    (hc : s.canTake src = false) : step s = .next s.afterNext :=
  (step_of_irq he).trans (congrArg Host.Outcome.next (tryHandler_of_not_canTake (s := s.afterNext) hc))

theorem step_of_runsStepHandler {s : State} (h : RunsStepHandler s) : step s = .next (stepHandler s.afterNext) :=
  (step_of_irq (src := .step) h.1).trans (congrArg Host.Outcome.next (tryHandler_step (s := s.afterNext) h.2))

theorem step_of_runsStopHandler {s : State} (h : RunsStopHandler s) : step s = .next (stopHandler s.afterNext) :=
  (step_of_irq (src := .stop) h.1).trans (congrArg Host.Outcome.next (tryHandler_stop (s := s.afterNext) h.2))

/-! ### What a handler leaves, case by case (R207, R210) -/

theorem stepHandler_of_stopped {s : State} (h : s.runStatus = .stopped) :
    stepHandler s = { s with ie := true, stepPending := false } := by
  rw [stepHandler_eq, if_neg (by simp [h])]

theorem stepHandler_of_velocity {s : State} (hm : s.mode = .velocity) (hr : s.runStatus = .running)
    (hv : 0 < s.velocity.toNat) :
    stepHandler s = { s with ie := true, stepPending := false, position := countOne s.direction s.position } := by
  rw [stepHandler_eq, if_pos ⟨hr, hv⟩, if_neg (by simp [hm])]

theorem stepHandler_of_position {s : State} (hm : s.mode = .position) (hr : s.runStatus = .running)
    (hv : 0 < s.velocity.toNat) :
    stepHandler s =
      if countOne s.direction s.position = s.posSetpoint then
        { s with
          ie := true, stepPending := false, position := countOne s.direction s.position
          velocity := 0, outputEnabled := false }
      else { s with ie := true, stepPending := false, position := countOne s.direction s.position } := by
  simp only [stepHandler_eq, hm, hr, hv, and_self, true_and, if_true]

theorem stopHandler_of_position {s : State} (hi : s.stopInterlockEnabled = .enabled) (hm : s.mode = .position) :
    stopHandler s =
      { s with
        ie := true, stopPending := false, runStatus := .stopped, posSetpoint := s.position, direction := .negative
        velocity := 0, outputEnabled := false } := by
  rw [stopHandler_eq, if_pos hi, if_pos hm]

theorem stopHandler_of_velocity {s : State} (hi : s.stopInterlockEnabled = .enabled) (hm : s.mode = .velocity) :
    stopHandler s =
      { s with
        ie := true, stopPending := false, runStatus := .stopped, velSetpoint := 0, direction := s.dirSetpoint
        velocity := 0, outputEnabled := false, trigger := false } := by
  rw [stopHandler_eq, if_pos hi, if_neg (by simp [hm])]

theorem stopHandler_of_disabled {s : State} (hi : s.stopInterlockEnabled = .disabled) :
    stopHandler s = { s with ie := true, stopPending := false } := by
  rw [stopHandler_eq, if_neg (by simp [hi])]

/-- R211: the handler leaves the mode, the interlock and all it reads for its targets as a second run writes them. -/
theorem stopHandler_twice (s : State) : stopHandler (stopHandler s) = stopHandler s := by
  cases hi : s.stopInterlockEnabled with
  | disabled =>
    rw [stopHandler_of_disabled hi]
    exact stopHandler_of_disabled hi
  | enabled =>
    cases hm : s.mode with
    | position =>
      rw [stopHandler_of_position hi hm]
      exact stopHandler_of_position hi hm
    | velocity =>
      rw [stopHandler_of_velocity hi hm]
      exact stopHandler_of_velocity hi hm

/-! ### Both requests pending (R212) -/

theorem run_two {s t u : State} (h : step s = .next t) (g : step t = .next u) : core.run 2 s = .next u :=
  (run_succ 1 h).trans (run_succ 0 g)

section

variable {s : State} {rest : List Event} (hm : s.mode = .velocity) (hi : s.stopInterlockEnabled = .enabled)
  (hie : s.ie = true) (hh : s.halted = false) (hstep : s.stepPending = true) (hstop : s.stopPending = true)

include hm hi hie hh hstep hstop

/-- The stop handler first: the step handler then finds the block STOPPED and counts nothing. -/
theorem run_stopIrq_stepIrq (ha : s.agenda = .stopIrq :: .stepIrq :: rest) :
    core.run 2 s =
      .next { s with
        agenda := rest, stepPending := false, stopPending := false, ie := true, runStatus := .stopped, velSetpoint := 0
        direction := s.dirSetpoint, velocity := 0, outputEnabled := false, trigger := false } := by
  refine run_two (step_stopIrq ha hh hie hstop) ?_
  rw [stopHandler_of_velocity (by exact hi) (by exact hm)]
  exact Eq.trans (step_stepIrq rfl hh rfl hstep) (congrArg Host.Outcome.next (stepHandler_of_stopped rfl))

/-- The step handler first: it makes the count. -/
theorem run_stepIrq_stopIrq (hr : s.runStatus = .running) (hv : 0 < s.velocity.toNat)
    (ha : s.agenda = .stepIrq :: .stopIrq :: rest) :
    core.run 2 s =
      .next { s with
        agenda := rest, stepPending := false, stopPending := false, ie := true, runStatus := .stopped, velSetpoint := 0
        direction := s.dirSetpoint, velocity := 0, outputEnabled := false, trigger := false
        position := countOne s.direction s.position } := by
  refine run_two (step_stepIrq ha hh hie hstep) ?_
  rw [stepHandler_of_velocity (by exact hm) (by exact hr) (by exact hv)]
  exact Eq.trans (step_stopIrq rfl hh rfl hstop) (congrArg Host.Outcome.next (stopHandler_of_velocity hi hm))

end

/-! ### The interlock over one step (R216) -/

/-- R172: RUNNING is refused under an asserted interlock, and STOPPED is what is there. -/
theorem writeRunStatus_of_interlocked {s : State} (b : Byte) (he : s.stopInterlockEnabled = .enabled)
    (hl : s.stopLevel = s.cfg.stopActiveLevel) (hs : s.runStatus = .stopped) :
    (writeRunStatus b s).runStatus = .stopped := by
  simp [writeRunStatus_eq, he, hl, hs]

theorem runStatus_of_exec_setStatus {ctl : ControlByte} {b : Byte} {r : BitVec 24} {s t : State}
    (e : exec (.setStatus ctl b r) s = .next t) : t.runStatus = (writeRunStatus b s).runStatus := by
  rw [exec_setStatus] at e
  cases e
  rfl

/-- The writers of `runStatus` are SET_STATUS, which is refused, and the stop handler, which writes STOPPED. -/
theorem runStatus_of_interlocked {s t : State} (he : s.stopInterlockEnabled = .enabled)
    (hl : s.stopLevel = s.cfg.stopActiveLevel) (hs : s.runStatus = .stopped) (e : step s = .next t)
    (hn : ¬ Resets s) : t.runStatus = .stopped := by
  by_contra hne
  have hw : WritersRespected s t := (stepsTo_of_step e).writersRespected hn
  rcases hw.runStatus (hs ▸ hne) with ⟨c, b, r, hr⟩ | ⟨-, hstopped⟩
  · rw [step_of_runs hr] at e
    exact hne ((runStatus_of_exec_setStatus e).trans (writeRunStatus_of_interlocked (s := s.afterNext) b he hl hs))
  · exact hne hstopped

theorem runStatus_of_resets {s t : State} (e : step s = .next t) (hr : Resets s) :
    t.runStatus = s.cfg.resets.runStatus := by
  rcases hr with ⟨level, he⟩ | hp | hp
  · rw [step_of_reset he] at e
    cases e
    exact (resetBlock_holds level s.afterNext).runStatus
  · rw [step_of_runsPhase_resetAct hp] at e
    cases e
    exact (resetAction_holds s.afterNext).runStatus
  · rw [step_of_runsPhase_bootAct hp] at e
    cases e
    exact (bootAction_holds s.afterNext).runStatus

end Sys2Proof.Machine

open Sys2Proof.Machine in
/-- Settles O8: an event is spent, performs an update, or runs the buffer, whose command or unknown id answers. -/
theorem everyStepAnswersNext : Obligations.EveryStepAnswersNext := by
  refine ⟨fun s => perform_answers s.nextEvent s.afterNext, fun i s => ?_⟩
  obtain ⟨t, ht, -⟩ := exec_leaves i s
  exact ⟨t, ht⟩

open Sys2Proof.Machine in
/-- Settles O41, by the interlock and the mode, which the handler leaves as they are. -/
theorem stopHandlerIsIdempotent : Obligations.StopHandlerIsIdempotent := stopHandler_twice

open Sys2Proof.Machine in
/-- Settles O44: the stop handler leaves the step request pending but the block STOPPED, so the step handler counts only
where it runs first. -/
theorem handlerOrdersDifferByOneCount : Obligations.HandlerOrdersDifferByOneCount := by
  intro s rest hm hr hv hi hie hh hstep hstop
  exact ⟨⟨_, run_stopIrq_stepIrq hm hi hie hh hstep hstop rfl, rfl, rfl, rfl, rfl⟩,
    ⟨_, run_stepIrq_stopIrq hm hi hie hh hstep hstop hr hv rfl, countOne_eq s.direction s.position, rfl, rfl, rfl⟩⟩

open Sys2Proof.Machine in
/-- Settles O51, by the writers of `runStatus` (R41) and the reset values. -/
theorem interlockKeepsStopped : Obligations.InterlockKeepsStopped :=
  fun _ _ he hl hs e => ⟨runStatus_of_interlocked he hl hs e, runStatus_of_resets e⟩

open Sys2Proof.Machine in
/-- Settles O39: the handler's return restores the enable it was entered with, so only R207's writes remain. -/
theorem stepHandlerCountsAndStopsOnArrival : Obligations.StepHandlerCountsAndStopsOnArrival := by
  intro s h
  have hie : s.afterNext.ie = true := ((canTake_step s).1 h.2).1
  rw [step_of_runsStepHandler h, stepHandler_eq, countOne_eq, ← hie]
  rfl

open Sys2Proof.Machine in
/-- Settles O40: the handler's return restores the enable it was entered with, so only R210's writes remain. -/
theorem stopHandlerForcesStopped : Obligations.StopHandlerForcesStopped := by
  intro s h
  have hie : s.afterNext.ie = true := ((canTake_stop s).1 h.2).1
  rw [step_of_runsStopHandler h, stopHandler_eq, ← hie]
  rfl

open Sys2Proof.Machine in
/-- Settles O42: each of the three conditions forbids the entry, and the event is spent. -/
theorem maskedHandlersAreNotEntered : Obligations.MaskedHandlersAreNotEntered :=
  fun s => ⟨fun he h => step_of_not_canTake (src := .step) he ((canTake_eq_false_iff s .step).2 h),
    fun he h => step_of_not_canTake (src := .stop) he ((canTake_eq_false_iff s .stop).2 h)⟩

open Sys2Proof.Machine in
/-- Settles O43: the step is the change of level of R209. -/
theorem assertingEdgeRaisesTheStopRequest : Obligations.AssertingEdgeRaisesTheStopRequest := by
  intro s level he hh
  rw [step_of_running hh, he]
  exact congrArg Host.Outcome.next (stopLevelChange_eq level s.afterNext)
end

section
/-! PROOFS. A position move with only ticks and their handlers (60_exceptions.md R217): one round of a tick and its
handler, then any number of them, in either direction. -/

namespace Sys2Proof.Machine

/-! ### Counting on from a position -/

/-- The position `n` counts on, wrapping modulo 2^32 (R207). -/
def countMany (d : Direction) (n : Nat) (position : Word) : Word :=
  match d with
  | .positive => position + BitVec.ofNat 32 n
  | .negative => position - BitVec.ofNat 32 n

theorem countMany_one (d : Direction) (x : Word) : countMany d 1 x = countOne d x := by cases d <;> rfl

theorem countMany_succ (d : Direction) (n : Nat) (x : Word) : countMany d (n + 1) x = countOne d (countMany d n x) := by
  cases d with
  | positive => exact (congrArg (x + ·) (BitVec.ofNat_add ..)).trans (add_assoc ..).symm
  | negative => exact (congrArg (x - ·) (BitVec.ofNat_add ..)).trans (sub_add_eq_sub_sub ..)

/-- The distance of R217: how many counts in its direction bring the motor to its setpoint. -/
def State.countsToGo (s : State) : Nat :=
  match s.direction with
  | .positive => (s.posSetpoint - s.position).toNat
  | .negative => (s.position - s.posSetpoint).toNat

theorem countsToGo_of_positive {s : State} (h : s.direction = .positive) :
    s.countsToGo = (s.posSetpoint - s.position).toNat := by simp [State.countsToGo, h]

theorem countsToGo_of_negative {s : State} (h : s.direction = .negative) :
    s.countsToGo = (s.position - s.posSetpoint).toNat := by simp [State.countsToGo, h]

theorem ofNat_eq_iff_of_le {n : Nat} {w : Word} (h : n ≤ w.toNat) : BitVec.ofNat 32 n = w ↔ n = w.toNat := by
  rw [← BitVec.toNat_inj, BitVec.toNat_ofNat, Nat.mod_eq_of_lt (h.trans_lt w.isLt)]

/-- Within the distance no count meets the setpoint but the last: the wrap comes only beyond it. -/
theorem countMany_eq_setpoint_iff {s : State} {n : Nat} (h : n ≤ s.countsToGo) :
    countMany s.direction n s.position = s.posSetpoint ↔ n = s.countsToGo := by
  cases hd : s.direction with
  | positive =>
    rw [countsToGo_of_positive hd] at h ⊢
    rw [countMany, ← ofNat_eq_iff_of_le h, eq_sub_iff_add_eq']
  | negative =>
    rw [countsToGo_of_negative hd] at h ⊢
    rw [countMany, ← ofNat_eq_iff_of_le h, sub_eq_iff_eq_add', eq_sub_iff_add_eq, eq_comm]

/-! ### One round -/

/-- A motor on its way to a position: R207 counts at each tick, and each tick makes a pulse. -/
structure Travelling (s : State) : Prop where
  mode : s.mode = .position
  runStatus : s.runStatus = .running
  velocity : 0 < s.velocity.toNat
  gate : s.outputEnabled = true
  interrupts : s.ie = true
  running : s.halted = false

/-- `s` after `n` rounds, with `rest` to come: `n` counts and `n` pulses, and the motor stopped if it has arrived. -/
def State.afterRounds (s : State) (n : Nat) (rest : List Event) : State :=
  { s with
    stepPending := false
    position := countMany s.direction n s.position
    history := s.history ++ List.replicate n (.stepPulse s.direction)
    velocity := if countMany s.direction n s.position = s.posSetpoint then 0 else s.velocity
    outputEnabled := if countMany s.direction n s.position = s.posSetpoint then false else s.outputEnabled
    agenda := rest }

theorem Travelling.step_tick {s : State} {rest : List Event} (h : Travelling s) (ha : s.agenda = .tick :: rest) :
    step s = .next { s with
      agenda := rest, stepPending := true, history := s.history ++ [.stepPulse s.direction] } := by
  rw [Machine.step_tick ha h.running, tick_eq, if_pos (by exact h.gate)]

theorem Travelling.run_round {s : State} {rest : List Event} (h : Travelling s)
    (ha : s.agenda = .tick :: .stepIrq :: rest) : core.run 2 s = .next (s.afterRounds 1 rest) := by
  refine run_two (h.step_tick ha) (Eq.trans (step_stepIrq rfl h.running h.interrupts rfl) ?_)
  rw [stepHandler_of_position (by exact h.mode) (by exact h.runStatus) (by exact h.velocity), State.afterRounds,
    countMany_one, ← h.interrupts]
  split_ifs <;> rfl

/-! ### Any number of rounds -/

theorem ticks_succ_eq_append (n : Nat) : ticks (n + 1) = ticks n ++ [.tick, .stepIrq] := by
  induction n with
  | zero => rfl
  | succ n ih => exact congrArg (fun l => Event.tick :: .stepIrq :: l) ih

/-- Before its arrival the motor only counts. -/
theorem afterRounds_of_not_arrived {s : State} {n : Nat} (rest : List Event)
    (h : countMany s.direction n s.position ≠ s.posSetpoint) :
    s.afterRounds n rest =
      { s with
        stepPending := false
        position := countMany s.direction n s.position
        history := s.history ++ List.replicate n (.stepPulse s.direction)
        agenda := rest } := by
  rw [State.afterRounds, if_neg h, if_neg h]

theorem afterRounds_succ {s : State} {n : Nat} (mid rest : List Event)
    (h : countMany s.direction n s.position ≠ s.posSetpoint) :
    (s.afterRounds n mid).afterRounds 1 rest = s.afterRounds (n + 1) rest := by
  rw [afterRounds_of_not_arrived mid h]
  have hposition : countMany s.direction 1 (countMany s.direction n s.position) =
      countMany s.direction (n + 1) s.position := by rw [countMany_one, countMany_succ]
  simp only [State.afterRounds, hposition, List.append_assoc, List.replicate_append_replicate]

theorem Travelling.afterRounds {s : State} {n : Nat} {rest : List Event} (hs : Travelling s)
    (h : countMany s.direction n s.position ≠ s.posSetpoint) : Travelling (s.afterRounds n rest) := by
  rw [afterRounds_of_not_arrived rest h]
  exact { hs with }

/-- No round before the last meets the setpoint, so each of them leaves the motor travelling. -/
theorem Travelling.run_rounds {s : State} (hs : Travelling s) {n : Nat} {rest : List Event}
    (hn : n + 1 ≤ s.countsToGo) (ha : s.agenda = ticks (n + 1) ++ rest) :
    core.run (2 * (n + 1)) s = .next (s.afterRounds (n + 1) rest) := by
  induction n generalizing rest with
  | zero => exact hs.run_round ha
  | succ n ih =>
    have hgoing : countMany s.direction (n + 1) s.position ≠ s.posSetpoint :=
      mt (countMany_eq_setpoint_iff (by omega)).1 (by omega)
    rw [ticks_succ_eq_append, List.append_assoc] at ha
    calc core.run (2 * (n + 1 + 1)) s
        = core.run 2 (s.afterRounds (n + 1) (.tick :: .stepIrq :: rest)) := run_add _ 2 (ih (by omega) ha)
      _ = .next ((s.afterRounds (n + 1) (.tick :: .stepIrq :: rest)).afterRounds 1 rest) :=
          (hs.afterRounds hgoing).run_round rfl
      _ = .next (s.afterRounds (n + 1 + 1) rest) := by rw [afterRounds_succ _ _ hgoing]

/-- R217 in the motor's own direction: exactly the last round of the distance stops it. -/
theorem Travelling.stops_exactly_on_arrival {s : State} (hs : Travelling s) {n : Nat} {rest : List Event}
    (hpos : 0 < n) (hn : n ≤ s.countsToGo) (ha : s.agenda = ticks n ++ rest) :
    ∃ t, core.run (2 * n) s = .next t ∧ t.position = countMany s.direction n s.position ∧
      t.history = s.history ++ List.replicate n (.stepPulse s.direction) ∧ t.runStatus = .running ∧ t.agenda = rest ∧
      (if n = s.countsToGo then t.position = t.posSetpoint ∧ t.velocity = 0 ∧ t.outputEnabled = false
        else t.velocity = s.velocity ∧ t.outputEnabled = true) := by
  obtain ⟨m, rfl⟩ := Nat.exists_eq_succ_of_ne_zero hpos.ne'
  refine ⟨_, hs.run_rounds hn ha, rfl, rfl, hs.runStatus, rfl, ?_⟩
  have harrives := countMany_eq_setpoint_iff hn
  split_ifs with hlast
  · have hat := harrives.2 hlast
    exact ⟨hat, if_pos hat, if_pos hat⟩
  · have hgoing := mt harrives.1 hlast
    exact ⟨if_neg hgoing, (if_neg hgoing).trans hs.gate⟩

end Sys2Proof.Machine

open Sys2Proof.Machine in
/-- Settles O54, each direction's distance in turn. -/
theorem positionMoveStopsExactlyOnArrival : Obligations.PositionMoveStopsExactlyOnArrival := by
  intro s n rest hm hr hv hg hie hh hpos ha
  have hs : Travelling s := ⟨hm, hr, hv, hg, hie, hh⟩
  constructor
  · intro hd hn
    have h := hs.stops_exactly_on_arrival hpos (countsToGo_of_positive hd ▸ hn) ha
    rwa [countsToGo_of_positive hd, hd] at h
  · intro hd hn
    have h := hs.stops_exactly_on_arrival hpos (countsToGo_of_negative hd ▸ hn) ha
    rwa [countsToGo_of_negative hd, hd] at h
end

section
/-! PROOFS. The timer of the timed refinement (70_reset_and_hazards.md R256, R257): one cycle of `clk`, and any number of
cycles from both counters at 0, told by the quotient and the remainder of their number by the prescaler. -/

namespace Sys2Proof.Machine

/-- `s` with the counters that `k` cycles leave from 0 while no Tick has come, and with `rest` to come. -/
def State.afterCycles (s : State) (k : Nat) (rest : List Event) : State :=
  { s with agenda := rest, timerCount := k / s.cfg.prescaler, prescaleCount := k % s.cfg.prescaler }

theorem afterCycles_zero {s : State} (rest : List Event) (ht : s.timerCount = 0) (hc : s.prescaleCount = 0) :
    s.afterCycles 0 rest = { s with agenda := rest } := by
  simp only [State.afterCycles, Nat.zero_div, Nat.zero_mod, ht, hc]

/-- A cycle that is not the prescaler's last goes on in the same row of `p` cycles. -/
theorem div_mod_succ_of_not_last {k p : Nat} (hp : 0 < p) (h : k % p + 1 < p) :
    (k + 1) / p = k / p ∧ (k + 1) % p = k % p + 1 := by
  have hk := Nat.mod_add_div k p
  exact (Nat.div_mod_unique hp).2 ⟨by omega, h⟩

/-- The prescaler's last cycle begins the next row. -/
theorem div_mod_succ_of_last {k p : Nat} (hp : 0 < p) (h : p ≤ k % p + 1) :
    (k + 1) / p = k / p + 1 ∧ (k + 1) % p = 0 := by
  have hk := Nat.mod_add_div k p
  have hlt := Nat.mod_lt k hp
  exact (Nat.div_mod_unique hp).2 ⟨by rw [mul_add]; omega, hp⟩

/-- Before the period's last cycle the timer counts. -/
theorem clockCycle_afterCycles {s : State} {k : Nat} (rest : List Event) (hp : 0 < s.cfg.prescaler)
    (hk : k + 1 < s.cfg.prescaler * (s.timerTop + 1)) :
    clockCycle (s.afterCycles k rest) = s.afterCycles (k + 1) rest := by
  by_cases hlast : k % s.cfg.prescaler + 1 < s.cfg.prescaler
  · obtain ⟨hdiv, hmod⟩ := div_mod_succ_of_not_last hp hlast
    rw [clockCycle_of_not_last (by exact hlast), State.afterCycles, State.afterCycles, hdiv, hmod]
  · obtain ⟨hdiv, hmod⟩ := div_mod_succ_of_last hp (Nat.not_lt.1 hlast)
    have hbelow : k / s.cfg.prescaler < s.timerTop := by
      have := Nat.div_lt_of_lt_mul hk
      omega
    rw [clockCycle_of_count (by exact Nat.not_lt.1 hlast) (by exact hbelow), State.afterCycles, State.afterCycles, hdiv,
      hmod]

/-- The period's last cycle is the prescaler's last at a count of `timerTop`: the Tick. -/
theorem clockCycle_afterCycles_last {s : State} {k : Nat} (rest : List Event) (hp : 0 < s.cfg.prescaler)
    (hk : k + 1 = s.cfg.prescaler * (s.timerTop + 1)) :
    clockCycle (s.afterCycles k rest) = tick (s.afterCycles 0 rest) := by
  obtain ⟨hdiv, hmod⟩ : k / s.cfg.prescaler = s.timerTop ∧ k % s.cfg.prescaler = s.cfg.prescaler - 1 :=
    (Nat.div_mod_unique hp).2 ⟨by rw [mul_add] at hk; omega, by omega⟩
  rw [clockCycle_of_tick (s := s.afterCycles k rest) (Nat.le_add_of_sub_le hmod.ge) hdiv.ge, State.afterCycles,
    State.afterCycles, Nat.zero_div, Nat.zero_mod]

section

variable {s : State} (hh : s.halted = false) (hp : 0 < s.cfg.prescaler) (ht : s.timerCount = 0)
  (hc : s.prescaleCount = 0)

include hh hp ht hc

/-- No cycle of the period before the last ticks. -/
theorem run_clocks {k : Nat} {rest : List Event} (hk : k < s.cfg.prescaler * (s.timerTop + 1))
    (ha : s.agenda = List.replicate k .clock ++ rest) : core.run k s = .next (s.afterCycles k rest) := by
  induction k generalizing rest with
  | zero =>
    rw [run_zero, afterCycles_zero rest ht hc, ← show s.agenda = rest from ha]
  | succ k ih =>
    rw [List.replicate_succ', List.append_assoc] at ha
    calc core.run (k + 1) s
        = core.run 1 (s.afterCycles k (.clock :: rest)) := run_add k 1 (ih (by omega) ha)
      _ = .next (clockCycle (s.afterCycles k rest)) := run_succ 0 (step_clock rfl hh)
      _ = .next (s.afterCycles (k + 1) rest) := by rw [clockCycle_afterCycles rest hp hk]

/-- The last cycle of the period ticks, and both counters are at 0 again. -/
theorem run_period {rest : List Event}
    (ha : s.agenda = List.replicate (s.cfg.prescaler * (s.timerTop + 1)) .clock ++ rest) :
    core.run (s.cfg.prescaler * (s.timerTop + 1)) s = .next (tick { s with agenda := rest }) := by
  have hpos : 0 < s.cfg.prescaler * (s.timerTop + 1) := Nat.mul_pos hp s.timerTop.succ_pos
  obtain ⟨k, hk⟩ := Nat.exists_eq_add_one_of_ne_zero hpos.ne'
  rw [hk, List.replicate_succ', List.append_assoc] at ha
  calc core.run (s.cfg.prescaler * (s.timerTop + 1)) s
      = core.run (k + 1) s := by rw [hk]
    _ = core.run 1 (s.afterCycles k (.clock :: rest)) := run_add k 1 (run_clocks hh hp ht hc (by omega) ha)
    _ = .next (clockCycle (s.afterCycles k rest)) := run_succ 0 (step_clock rfl hh)
    _ = .next (tick { s with agenda := rest }) := by
        rw [clockCycle_afterCycles_last rest hp hk.symm, afterCycles_zero rest ht hc]

end

end Sys2Proof.Machine

open Sys2Proof.Machine in
/-- Settles O37: each cycle before the last only counts, and the last finds the count at `timerTop`. -/
theorem timerPeriodInClockCycles : Obligations.TimerPeriodInClockCycles := by
  intro s rest hh hp ht hc ha
  refine ⟨fun k hk => ?_, (run_period hh hp ht hc ha).trans (congrArg Host.Outcome.next (tick_eq _))⟩
  obtain ⟨m, hm⟩ := Nat.exists_eq_add_of_le hk.le
  rw [hm, List.replicate_add, List.append_assoc] at ha
  exact ⟨_, run_clocks hh hp ht hc hk ha, rfl, rfl⟩

open Sys2Proof.Machine in
/-- Settles O38: the step is one cycle, whose Tick is that of R104. -/
theorem timerTicksAtOrAboveTheTop : Obligations.TimerTicksAtOrAboveTheTop := by
  intro s he hh
  rw [step_of_running hh, he]
  exact congrArg Host.Outcome.next ((clockCycle_eq s.afterNext).trans (by rw [tick_eq]; rfl))
end

section
/-! PROOFS. The Reset from outside (70_reset_and_hazards.md R241). -/

open Sys2Proof.Machine in
/-- Settles O46: the step is the Reset of the state without its event, whatever that state is. -/
theorem resetRestoresTheTablesValues : Obligations.ResetRestoresTheTablesValues :=
  fun s level he => ⟨_, step_of_reset he, resetBlock_holds level s.afterNext, rfl, rfl, rfl, rfl, rfl⟩
end

section
/-! PROOFS. A motor in VELOCITY mode under TP1 (70_reset_and_hazards.md R251): with no Tick overrun, every step keeps the
position in balance with the pulses, where a Tick not yet served counts as served. -/

namespace Sys2Proof.Machine

/-! ### Pulses and counts -/

theorem pulseCount_append_stepPulse (h : List OutputEvent) (d : Direction) :
    pulseCount (h ++ [.stepPulse d]) = pulseCount h + 1 := by
  induction h with
  | nil => rfl
  | cons e h ih => cases e <;> simp [pulseCount, ih]

theorem tick_of_gate {s : State} (hg : s.outputEnabled = true) :
    tick s = { s with stepPending := true, history := s.history ++ [.stepPulse s.direction] } := by
  rw [tick_eq, if_pos hg]

/-- The position as it is once a pending step request is served (R207). -/
def State.servedPosition (s : State) : Word :=
  if s.stepPending = true then countOne s.direction s.position else s.position

theorem servedPosition_of_pending {s : State} (h : s.stepPending = true) :
    s.servedPosition = countOne s.direction s.position := if_pos h

theorem servedPosition_of_not_pending {s : State} (h : s.stepPending = false) : s.servedPosition = s.position :=
  if_neg (by simp [h])

/-! ### The invariant -/

/-- A motor moving in direction `d` in VELOCITY mode, whose served position is `origin` counted on by all its pulses. -/
structure Cruising (d : Direction) (origin : Word) (s : State) : Prop where
  mode : s.mode = .velocity
  runStatus : s.runStatus = .running
  velocity : 0 < s.velocity.toNat
  gate : s.outputEnabled = true
  interrupts : s.ie = true
  running : s.halted = false
  direction : s.direction = d
  balance : s.servedPosition = countMany d (pulseCount s.history) origin

/-- Some origin balances any position: counting is undone by subtraction. -/
theorem exists_countMany_eq (d : Direction) (n : Nat) (x : Word) : ∃ origin, countMany d n origin = x := by
  cases d with
  | positive => exact ⟨x - BitVec.ofNat 32 n, sub_add_cancel ..⟩
  | negative => exact ⟨x + BitVec.ofNat 32 n, add_sub_cancel_right ..⟩

/-- The agenda begins with `events`, in whose run every Tick is served before the next (TP1, R251). -/
structure WithoutOverrun (events rest : List Event) (s : State) : Prop where
  agenda : s.agenda = events ++ rest
  served : noOverrun s.stepPending events.length s = true

namespace WithoutOverrun

variable {e : Event} {events rest : List Event} {s t : State} (h : WithoutOverrun (e :: events) rest s)

include h

theorem tail : events ++ rest = s.agenda.tail := (congrArg List.tail h.agenda).symm

theorem of_tick (ht : s.ticksNext = true) (hstep : step s = .next t) (ha : t.agenda = s.agenda.tail)
    (hp : t.stepPending = true) : s.stepPending = false ∧ WithoutOverrun events rest t := by
  obtain ⟨hs, hn⟩ := noOverrun_of_tick h.served ht
  rw [after_of_step hstep] at hn
  exact ⟨hs, ha.trans h.tail.symm, hp ▸ hn⟩

theorem of_not_tick (ht : s.ticksNext = false) (hstep : step s = .next t) (ha : t.agenda = s.agenda.tail)
    (hp : t.stepPending = (s.stepPending && !s.servesNext .step)) : WithoutOverrun events rest t := by
  have hn := noOverrun_of_not_tick h.served ht
  rw [after_of_step hstep, ← hp] at hn
  exact ⟨ha.trans h.tail.symm, hn⟩

end WithoutOverrun

namespace Cruising

variable {d : Direction} {origin : Word} {s : State} (hs : Cruising d origin s)

include hs

/-- A Tick that overruns none adds a pulse and a count. -/
theorem tick (hp : s.stepPending = false) : Cruising d origin (tick s) := by
  have hbal : (Machine.tick s).servedPosition = countMany d (pulseCount (Machine.tick s).history) origin := by
    rw [tick_of_gate hs.gate, servedPosition_of_pending rfl, pulseCount_append_stepPulse, countMany_succ, ← hs.balance,
      servedPosition_of_not_pending hp, hs.direction]
  rw [tick_of_gate hs.gate] at hbal ⊢
  exact { hs with balance := hbal }

/-- The handler makes the count that was pending. -/
theorem stepHandler (hp : s.stepPending = true) : Cruising d origin (stepHandler s) := by
  rw [stepHandler_of_velocity hs.mode hs.runStatus hs.velocity]
  have hbal := (servedPosition_of_pending hp).symm.trans hs.balance
  exact { hs with interrupts := rfl, balance := hbal }

/-! ### Each event under TP1 -/

variable {events rest : List Event}

theorem step_tick (h : WithoutOverrun (.tick :: events) rest s) :
    ∃ t, step s = .next t ∧ Cruising d origin t ∧ WithoutOverrun events rest t := by
  have hstep := Machine.step_tick h.agenda hs.running
  have hticks := ticksNext_of_tick h.agenda hs.running
  obtain ⟨hp, ht⟩ := h.of_tick hticks hstep (by rw [tick_eq]; exact h.tail) (by rw [tick_eq])
  exact ⟨_, hstep, Cruising.tick { hs with } hp, ht⟩

/-- A cycle of `clk` ticks, or touches only the timer's counters. -/
theorem step_clock (h : WithoutOverrun (.clock :: events) rest s) :
    ∃ t, step s = .next t ∧ Cruising d origin t ∧ WithoutOverrun events rest t := by
  have hstep := Machine.step_clock h.agenda hs.running
  have hticks := ticksNext_of_clock h.agenda hs.running
  have hwaits : s.stepPending = (s.stepPending && !s.servesNext .step) := by
    rw [servesNext_step_of_clock h.agenda, Bool.not_false, Bool.and_true]
  rw [clockCycle_eq] at hstep
  split_ifs at hstep with hlast hcount
  · have hsilent : s.ticksNext = false := Bool.eq_false_iff.2 fun ht => Nat.not_le.2 hlast (hticks.1 ht).1
    exact ⟨_, hstep, { hs with }, h.of_not_tick hsilent hstep h.tail hwaits⟩
  · have hsilent : s.ticksNext = false := Bool.eq_false_iff.2 fun ht => Nat.not_le.2 hcount (hticks.1 ht).2
    exact ⟨_, hstep, { hs with }, h.of_not_tick hsilent hstep h.tail hwaits⟩
  · obtain ⟨hp, ht⟩ := h.of_tick (hticks.2 ⟨Nat.not_lt.1 hlast, Nat.not_lt.1 hcount⟩) hstep
      (by rw [tick_eq]; exact h.tail) (by rw [tick_eq])
    exact ⟨_, hstep, Cruising.tick { hs with } hp, ht⟩

/-- The handler runs exactly where a Tick is unserved; otherwise its event is spent (log 4). -/
theorem step_stepIrq (h : WithoutOverrun (.stepIrq :: events) rest s) :
    ∃ t, step s = .next t ∧ Cruising d origin t ∧ WithoutOverrun events rest t := by
  have hserves := servesNext_of_stepIrq h.agenda
  have hticks := ticksNext_of_stepIrq h.agenda
  cases hp : s.stepPending with
  | true =>
    have hc : s.canTake .step = true := (canTake_step s).2 ⟨hs.interrupts, hp, hs.running⟩
    have hstep := Machine.step_stepIrq h.agenda hs.running hs.interrupts hp
    have ht := Cruising.stepHandler (s := { s with agenda := events ++ rest }) { hs with } hp
    rw [stepHandler_of_velocity (by exact hs.mode) (by exact hs.runStatus) (by exact hs.velocity)] at hstep ht
    exact ⟨_, hstep, ht, h.of_not_tick hticks hstep h.tail (by rw [hserves, hc, hp]; rfl)⟩
  | false =>
    have hc : s.canTake .step = false := (canTake_eq_false_iff s .step).2 (.inr (.inl hp))
    have hstep := step_of_not_canTake (src := .step) (nextEvent_of_agenda h.agenda) hc
    exact ⟨_, hstep, { hs with }, h.of_not_tick hticks hstep rfl (by rw [hp]; exact hp)⟩

/-- Any list of such events leaves the motor cruising from the same origin. -/
theorem run_events (he : ∀ e ∈ events, e = .tick ∨ e = .clock ∨ e = .stepIrq) (h : WithoutOverrun events rest s) :
    ∃ t, core.run events.length s = .next t ∧ Cruising d origin t := by
  induction events generalizing s with
  | nil => exact ⟨s, rfl, hs⟩
  | cons e events ih =>
    obtain ⟨hfirst, hothers⟩ := List.forall_mem_cons.1 he
    obtain ⟨t, hstep, ht, hrest⟩ : ∃ t, step s = .next t ∧ Cruising d origin t ∧ WithoutOverrun events rest t := by
      rcases hfirst with rfl | rfl | rfl
      · exact hs.step_tick h
      · exact hs.step_clock h
      · exact hs.step_stepIrq h
    obtain ⟨u, hrun, hu⟩ := ih ht hothers hrest
    exact ⟨u, (run_succ events.length hstep).trans hrun, hu⟩

theorem position_eq (hp : s.stepPending = false) : s.position = countMany d (pulseCount s.history) origin :=
  (servedPosition_of_not_pending hp).symm.trans hs.balance

end Cruising

/-- Two positions counted on from one origin are apart by the difference of the counts, in the direction's sense. -/
theorem countMany_balance (d : Direction) (m n : Nat) (x : Word) :
    countMany d n x + BitVec.ofNat 32 (if d = .negative then n else m) =
      countMany d m x + BitVec.ofNat 32 (if d = .negative then m else n) := by
  cases d with
  | positive => exact add_right_comm ..
  | negative => exact (sub_add_cancel ..).trans (sub_add_cancel ..).symm

end Sys2Proof.Machine

open Sys2Proof.Machine in
/-- Settles O55: the motor starts in balance with an origin, every event keeps the balance, and at the end no count is
pending. -/
theorem countsEqualPulsesWithoutOverrun : Obligations.CountsEqualPulsesWithoutOverrun := by
  intro s events rest hm hr hv hg hie hh hp he ha hn
  obtain ⟨origin, horigin⟩ := exists_countMany_eq s.direction (pulseCount s.history) s.position
  have hs : Cruising s.direction origin s :=
    ⟨hm, hr, hv, hg, hie, hh, rfl, (servedPosition_of_not_pending hp).trans horigin.symm⟩
  obtain ⟨t, hrun, ht⟩ := hs.run_events he ⟨ha, hp ▸ hn⟩
  refine ⟨t, hrun, fun hq => ?_⟩
  rw [ht.position_eq hq, hs.position_eq hp]
  exact countMany_balance ..
end

section
/-! PROOFS. Runs the model admits (70_reset_and_hazards.md R246 to R250), each as the state its transactions leave: a Tick
with its handler at once or with something between, and a stale apply after an arrival or a stop. -/

namespace Sys2Proof.Machine

/-! ### Pieces of a run -/

/-- The handler that finds a velocity of 0 counts nothing (R207). -/
theorem stepHandler_of_still {s : State} (hv : s.velocity = 0) :
    stepHandler s = { s with ie := true, stepPending := false } := by
  rw [stepHandler_eq, if_neg (by simp [hv])]

/-- A Tick whose handler runs at once. -/
theorem run_tick_stepIrq {s : State} {rest : List Event} (hh : s.halted = false) (hie : s.ie = true)
    (ha : s.agenda = .tick :: .stepIrq :: rest) :
    core.run 2 s = .next (stepHandler (tick { s with agenda := rest })) := by
  refine run_two (step_tick ha hh) ?_
  rw [tick_eq, tick_eq]
  exact step_stepIrq rfl hh hie rfl

/-- The foreground's APPLY at the end of a run writes the latches as that run left them. -/
theorem run_then_apply {s u : State} {n : Nat} {rest : List Event} (hu : core.run n s = .next u)
    (hh : u.halted = false) (hp : u.pc = .apply) (ha : u.agenda = .foreground :: rest) :
    core.run (n + 1) s = .next (applyTransaction { u with agenda := rest }) :=
  (run_add n 1 hu).trans (run_succ 0 (step_apply ha hh hp))

/-! ### Between a Tick and its handler (R248, R249, R250) -/

/-- R248: SET_STATUS STOPPED without apply writes `runStatus` alone of the motion registers. -/
theorem exec_setStatus_stopped {b : Byte} {r : BitVec 24} {s : State} (hb : b = s.cfg.enc.runStopped) :
    ∃ t, exec (.setStatus .noApply b r) s = .next t ∧ CommandKeeps s t ∧ t.runStatus = .stopped ∧
      t.position = s.position := by
  refine ⟨_, exec_setStatus .noApply b r s, exec_keeps (exec_setStatus .noApply b r s), ?_, ?_⟩
  · rw [writeRunStatus_eq, if_pos hb]
    rfl
  · rw [writeRunStatus_eq]
    rfl

/-- R249: the apply falls between the Tick and its handler. -/
theorem run_tick_apply_stepIrq {s : State} {rest : List Event} (hie : s.ie = true) (hh : s.halted = false)
    (hp : s.pc = .apply) (ha : s.agenda = .tick :: .foreground :: .stepIrq :: rest) :
    core.run 3 s = .next (stepHandler (applyTransaction (tick { s with agenda := rest }))) := by
  refine (run_succ 2 (step_tick ha hh)).trans ?_
  rw [tick_eq, tick_eq]
  exact run_two (step_apply rfl hh hp) (step_stepIrq rfl hh hie rfl)

/-! ### Stale applies (R246, R247) -/

/-- R246 up to the arrival: the snapshot is taken one step before the setpoint, and the handler stops the motor there. -/
theorem run_snap_arrival {s : State} {rest : List Event} (hm : s.mode = .position) (hr : s.runStatus = .running)
    (hv : 0 < s.velocity.toNat) (harrives : countOne s.direction s.position = s.posSetpoint) (hie : s.ie = true)
    (hh : s.halted = false) (hp : s.pc = .snap) (ha : s.agenda = .foreground :: .tick :: .stepIrq :: rest) :
    core.run 3 s =
      .next { s with
        agenda := rest, pc := .apply, latches := modeTargets s, ie := true, stepPending := false
        position := countOne s.direction s.position, velocity := 0, outputEnabled := false
        history := if s.outputEnabled = true then s.history ++ [.stepPulse s.direction] else s.history } := by
  refine (run_succ 2 (step_snap ha hh hp)).trans ?_
  refine Eq.trans (run_tick_stepIrq hh hie rfl) (congrArg Host.Outcome.next ?_)
  rw [tick_eq, snapTransaction_eq, stepHandler_of_position (by exact hm) (by exact hr) (by exact hv),
    if_pos (by exact harrives)]
  rfl

/-- R247 up to the stop: the asserting edge comes after the snapshot, and the handler stops the motor. -/
theorem run_snap_stop {s : State} {rest : List Event} (hm : s.mode = .velocity)
    (hi : s.stopInterlockEnabled = .enabled) (hl : s.stopLevel ≠ s.cfg.stopActiveLevel) (hie : s.ie = true)
    (hh : s.halted = false) (hp : s.pc = .snap)
    (ha : s.agenda = .foreground :: .stopLevelChange s.cfg.stopActiveLevel :: .stopIrq :: rest) :
    core.run 3 s =
      .next { s with
        agenda := rest, pc := .apply, latches := modeTargets s, stopLevel := s.cfg.stopActiveLevel, ie := true
        stopPending := false, runStatus := .stopped, velSetpoint := 0, direction := s.dirSetpoint
        velocity := 0, outputEnabled := false, trigger := false } := by
  refine (run_succ 2 (step_snap ha hh hp)).trans (run_two (step_stopLevelChange rfl hh) ?_)
  rw [stopLevelChange_eq, if_pos (by exact ⟨hl, rfl, hi⟩)]
  exact Eq.trans (step_stopIrq rfl hh hie rfl) (congrArg Host.Outcome.next (stopHandler_of_velocity hi hm))

end Sys2Proof.Machine

open Sys2Proof.Machine in
/-- Settles O56: the arrival leaves the latches of the snapshot, taken one step before the setpoint, for the apply. -/
theorem staleApplyAfterArrival : Obligations.StaleApplyAfterArrival := by
  intro s rest hval hm hr hd hset hv hfloor hie hh hp ha
  have harrives : countOne s.direction s.position = s.posSetpoint := by rw [hset, hd, countOne]
  have hne : s.posSetpoint ≠ s.position := by simp [hset]
  have hmoves : PositionMoves s := ⟨hne, hr, hfloor⟩
  have harrival := run_snap_arrival hm hr hv harrives hie hh hp ha
  refine ⟨⟨_, harrival, harrives, rfl, rfl⟩, _, run_then_apply harrival hh rfl rfl, harrives, ?_⟩
  rw [applyTransaction_eq, modeTargets_of_position hm, if_pos hmoves]
  exact ⟨(minVelocity_pos_of_valid hval).trans hfloor, decide_eq_true hmoves⟩

open Sys2Proof.Machine in
/-- Settles O57: the stop leaves the latches of the snapshot, taken while RUNNING, for the apply. -/
theorem staleApplyAfterStop : Obligations.StaleApplyAfterStop := by
  intro s rest hval hm hr hfloor hi hl hie hh hp ha
  have hmoves : VelocityMoves s := ⟨hr, hfloor⟩
  have hstop := run_snap_stop hm hi hl hie hh hp ha
  refine ⟨⟨_, hstop, rfl, rfl, rfl⟩, _, run_then_apply hstop hh rfl rfl, rfl, ?_⟩
  rw [applyTransaction_eq, modeTargets_of_velocity hm, if_pos hmoves]
  exact ⟨(minVelocity_pos_of_valid hval).trans hfloor, decide_eq_true hmoves⟩

open Sys2Proof.Machine in
/-- Settles O58: the command leaves velocity and gate as they were, so the Tick pulses and its handler, finding STOPPED,
does not count. -/
theorem stoppedWithoutApplyKeepsPulsing : Obligations.StoppedWithoutApplyKeepsPulsing := by
  intro s rest b r hp hh hie hd hb hg ha
  obtain ⟨t, ht, hk, hstopped, hpos⟩ := exec_setStatus_stopped (s := s.afterNext) (r := r) hb
  have hstep : step s = .next t := (step_of_runs ⟨nextEvent_of_agenda ha, hh, hp, hd⟩).trans ht
  have hta : t.agenda = .tick :: .stepIrq :: rest := hk.agenda.trans (congrArg List.tail ha)
  have hrun := (run_succ 2 hstep).trans (run_tick_stepIrq (hk.halted.trans hh) (hk.ie.trans hie) hta)
  have htg : t.outputEnabled = true := hk.outputEnabled.trans hg
  rw [tick_of_gate (by exact htg), stepHandler_of_stopped (by exact hstopped)] at hrun
  refine ⟨_, hrun, hstopped, hk.velocity, htg, hpos, ?_⟩
  rw [hk.history, hk.direction]
  rfl

open Sys2Proof.Machine in
/-- Settles O59: the Tick pulses before the apply, and the handler reads the direction and velocity the apply wrote. -/
theorem applyBetweenTickAndHandlerMiscounts : Obligations.ApplyBetweenTickAndHandlerMiscounts := by
  intro s rest hm hr hg hie hh hp ha
  have hrun := run_tick_apply_stepIrq hie hh hp ha
  rw [tick_of_gate (by exact hg), applyTransaction_eq] at hrun
  by_cases hv : s.latches.tgtVelocity = 0
  · rw [stepHandler_of_still (by exact hv)] at hrun
    exact ⟨_, hrun, rfl, rfl, (if_pos hv).symm⟩
  · have hmoves : 0 < s.latches.tgtVelocity.toNat := by bv_omega
    rw [stepHandler_of_velocity (by exact hm) (by exact hr) (by exact hmoves)] at hrun
    exact ⟨_, hrun, rfl, rfl, (countOne_eq ..).trans (if_neg hv).symm⟩

open Sys2Proof.Machine in
/-- Settles O60: the second Tick finds the request pending already, so one handler serves both. -/
theorem overrunLosesACount : Obligations.OverrunLosesACount := by
  intro s rest hm hr hv hg hie hh ha
  have hfirst := step_tick ha hh
  rw [tick_of_gate (by exact hg)] at hfirst
  have hrun := (run_succ 2 hfirst).trans (run_tick_stepIrq hh hie rfl)
  rw [tick_of_gate (by exact hg), stepHandler_of_velocity (by exact hm) (by exact hr) (by exact hv)] at hrun
  exact ⟨_, hrun, rfl, List.append_assoc .., countOne_eq ..⟩
end
